-- ==== Sys2Proof/Word.lean ====
section
/-! DEFINITION. The words of the LE-4100: bytes, addresses, counters, sequences, keys, and the numbers of ports, lanes and channels. -/

namespace Sys2Proof

/-- 8 bits (00_scope, "Bytes and order"). -/
abbrev Byte := BitVec 8
/-- An Ethernet address, first byte most significant (00_scope). -/
abbrev Addr := BitVec 48
/-- A value of the time counter, in microseconds (R91). -/
abbrev Time := BitVec 64
/-- A counter of the part, 48 bits and saturating (R20). -/
abbrev Counter := BitVec 48
/-- A 48-bit sequence (R4). -/
abbrev Seq := BitVec 48
/-- A 32-byte key, first byte most significant (R21). -/
abbrev Key := BitVec 256
/-- A 4-byte salt (R21). -/
abbrev Salt := BitVec 32
/-- A key check value (R14). -/
abbrev Kcv := BitVec 24
/-- A load count, wrapping from 2^32 − 1 to 0 (R21). -/
abbrev Load := BitVec 32
/-- A frame from the first byte of its DA to the last byte of its FCS, or any string of bytes. -/
abbrev Frame := List Byte
/-- An inner port P0–P3. -/
abbrev PortId := Fin 4
/-- A lane L0–L4; 4 is the standby lane. -/
abbrev LaneId := Fin 5
/-- A channel number 0..1023 (R17). -/
abbrev Chan := Fin 1024

/-- A slot letter. -/
inductive Letter where
  | a
  | b
deriving DecidableEq, Repr

/-- The other slot letter of a channel's side. -/
def Letter.other : Letter → Letter
  | .a => .b
  | .b => .a

/-- A place at which frames arrive and from which they leave: an inner port or a lane (R156, R163). -/
inductive Place where
  | port (n : PortId)
  | lane (k : LaneId)
deriving DecidableEq, Repr

/-- The source of a frame in the cipher core (R12): the port or lane of arrival, or the block that originated it. -/
inductive Origin where
  | port (n : PortId)
  | lane (k : LaneId)
  | unit (k : LaneId)
  | agent
deriving DecidableEq, Repr

/-- The levels of the input pins and of the strap (00_scope, signal groups). `true` for the active-low pins is high. -/
structure Pins where
  resetHigh : Bool
  zeroizeHigh : Bool
  los : BitVec 5
  selftestLong : Bool
deriving DecidableEq, Repr

end Sys2Proof
end

