-- ==== Sys2Proof/Syntax.lean ====
section
/-! DEFINITION. The commands: one constructor for each row of `spec/opcode_table.json`, in the table's order.
A directive carries its operand bytes as 12.4 lays them out, so that every operand the rules refuse FORMAT can be written.
Arrivals carry the frame with its FCS and whether the arrival began while the ports and lanes were BLOCKED (R58, R72).
Completions of operations whose order the part does not fix name the frame by its place in the line of its source (R66, R82). -/

namespace Sys2Proof

inductive Instr where
  /-- POWER_ON (R169). Power-on begins a cold reset that discards frames, work records, queue entries and timers, zeroes the time counter and enters TESTING. -/
  | powerOn (pins : Pins)
  /-- RESET_N_ASSERT (R169). RESET_N going low begins a cold reset; the part stays in TESTING with the time counter held at 0. -/
  | resetNAssert
  /-- RESET_N_RELEASE (R169). RESET_N going high with power good lets the self-check begin. -/
  | resetNRelease
  /-- SELF_CHECK_COMPLETION (R170). The self-check ends; the first failing test puts the part in FAILED with its code, otherwise it passes.
`cipherOk`: the cipher core's hardware is sound; `tablesOk`, `windowsOk`: memory tests 2 and 3 pass (R170; log 22). -/
  | selfCheckCompletion (cipherOk tablesOk windowsOk : Bool)
  /-- ZEROIZE_N_ASSERT (R175). ZEROIZE_N going low zeroizes the channel table and shows STATUS code 6. -/
  | zeroizeNAssert
  /-- ZEROIZE_N_RELEASE (R175). ZEROIZE_N going high restores the status code and reloads channel 0 when LOCK is burned. -/
  | zeroizeNRelease
  /-- LOS_ASSERT (R127). A lane's LOS pin is asserted; the lane goes to LOS, its continuity timer stops and its peer run and loop run reset. -/
  | losAssert (k : LaneId)
  /-- LOS_RELEASE (R127). A lane's LOS pin is released; the lane goes to DARK and its continuity timer starts. -/
  | losRelease (k : LaneId)
  /-- INNER_FRAME_ARRIVAL (R58). A frame arriving on an inner port is sorted by the port receiver's ordered tests and counted. -/
  | innerFrameArrival (n : PortId) (f : Frame) (beganBlocked : Bool)
  /-- OUTBOUND_LOOKUP_END (R46). An outbound lookup ends on the bank it began on, counts its hit and hands PROTECT, BYPASS, DISCARD or NO-MATCH to the port's outbound path. -/
  | outboundLookupEnd (n : PortId)
  /-- PROTECT_COMPLETION (R67). A protect operation completes; the in-flight count decrements and the frame passes or is dropped as zeroized against its slot's state and load count. -/
  | protectCompletion (o : Origin) (i : Nat)
  /-- OUTBOUND_BUFFER_ENTRY (R108). A protected or bypass frame, once every earlier frame of its port is resolved, is appended to its outbound buffer or tail-dropped. -/
  | outboundBufferEntry (n : PortId)
  /-- LANE_FRAME_ARRIVAL (R72). A frame arriving on a lane is sorted by the lane receiver's ordered tests, counted and routed. -/
  | laneFrameArrival (k : LaneId) (f : Frame) (beganBlocked : Bool)
  /-- INBOUND_LOOKUP_END (R47). An inbound clear-frame lookup ends, delivering a BYPASS frame or dropping and counting the frame. -/
  | inboundLookupEnd (k : LaneId)
  /-- VERIFY_COMPLETION (R84). A verify operation completes; the frame is judged for failure, staleness and the final window check, and the window is updated. -/
  | verifyCompletion (p : Place) (i : Nat)
  /-- RETURN_CHECK (R48). A return-check lookup ends and passes the verified frame on to delivery or drops it as RETURN-MISMATCH. -/
  | returnCheck (k : LaneId) (i : Nat)
  /-- INBOUND_HAND_ON (R85). A frame waits until every earlier frame of its lane is resolved and is then handed on to a delivery queue, the agent or the lane unit. -/
  | inboundHandOn (p : Place)
  /-- CONTINUITY_TIMER_EXPIRY (R127). A lane's continuity timer expires; the lane goes DARK and its peer run and loop run reset. -/
  | continuityTimerExpiry (k : LaneId)
  /-- BEACON_TIMER_EXPIRY (R124). A lane's beacon timer expires and restarts, and a beacon is generated unless the lane is in LINE loopback. -/
  | beaconTimerExpiry (k : LaneId)
  /-- RATE_TIMER_EXPIRY (R150). A test generator's rate timer expires and restarts, and a test frame is due. -/
  | rateTimerExpiry (k : LaneId)
  /-- CONTROL_QUEUE_OFFER (R123). A completed beacon or test frame, in lane-unit order, is offered to the lane's control queue and appended, replaces a beacon, or is skipped. -/
  | controlQueueOffer (k : LaneId)
  /-- LANE_TRANSMIT_START (R122). An idle lane transmitter takes the next frame by strict priority or from the return queue, removing it from its source. -/
  | laneTransmitStart (k : LaneId)
  /-- LANE_TRANSMIT_END (R122). A frame's transmission on a lane ends and the transmitter becomes idle. -/
  | laneTransmitEnd (k : LaneId)
  /-- PORT_TRANSMIT_PAUSE (R111). An idle inner-port transmitter begins a pending ON or OFF pause frame, computing the quanta and updating the pause record. -/
  | portTransmitPause (n : PortId)
  /-- PORT_TRANSMIT_QUEUE_FRAME (R117). An idle inner-port transmitter with no hold in force takes the head frame of the delivery queue. -/
  | portTransmitQueueFrame (n : PortId)
  /-- PORT_TRANSMIT_END (R117). A frame's transmission on an inner port ends and the transmitter becomes idle. -/
  | portTransmitEnd (n : PortId)
  /-- PAUSE_REFRESH_EXPIRY (R113). The refresh timer expires while a pause is in force and makes a new ON frame pending. -/
  | pauseRefreshExpiry (n : PortId)
  /-- PAUSE_HOLD_EXPIRY (R118). A hold from the switch on a delivery queue ends when its time passes. -/
  | pauseHoldExpiry (n : PortId)
  /-- GRACE_EXPIRY (R103). A FADING slot's grace timer expires; the slot becomes EMPTY and FADED is set. -/
  | graceExpiry (c : Chan) (x : Letter)
  /-- SCHEDULE_DUE (R100). A stored schedule falls due and is removed; a switch is requested, and the schedule lapses with MISSED when the switch is not made. -/
  | scheduleDue (c : Chan)
  /-- WTR_EXPIRY (R134). The wait-to-restore timer expires; the selected lane's class becomes NONE and the arbiter runs. -/
  | wtrExpiry
  /-- HOLDOFF_EXPIRY (R167). The agent's 1 ms holdoff timer expires and the notice conditions are judged again. -/
  | holdoffExpiry
  /-- RUNNER_TAKE_REQUEST (R158). The runner takes the oldest queued request and runs its directives in order, with the budget test and checks before each. -/
  | runnerTakeRequest (count : Nat)
  /-- SENDER_SEND (R161). The sender offers the frame in hand to a control queue or a delivery queue; it is appended, refused and held, or lost. -/
  | senderSend
  /-- RESTART_TIMEOUT (R169). One second after a RESTART directive ended with its reply still unsent, the cold reset begins. -/
  | restartTimeout
  /-- CHAN_OPEN (R30). Opens a CLOSED traffic channel with the given or default config and clears its counters. -/
  | chanOpen (ops : List Byte)
  /-- CHAN_SET (R31). Changes the given config fields of an OPEN channel and re-marks the windows when W changes. -/
  | chanSet (ops : List Byte)
  /-- CHAN_CLOSE (R33). Closes an OPEN traffic channel, emptying all but DRAINING slots and removing the schedule. -/
  | chanClose (ops : List Byte)
  /-- CHAN_READ (R34). Returns a channel record's state, config, schedule, slots and counters. -/
  | chanRead (ops : List Byte)
  /-- KEY_STAGE (R25). Writes key, salt and epoch into the staging buffer and sets it valid. -/
  | keyStage (ops : List Byte)
  /-- KEY_COMMIT (R26). Commits the staged key into the named outbound and/or inbound slot after ordered checks and returns the KCV. -/
  | keyCommit (ops : List Byte)
  /-- KEY_ERASE (R29). Empties the named slot where its state allows it. -/
  | keyErase (ops : List Byte)
  /-- SWITCH_NOW (R98). Requests an immediate switch of a channel's outbound slots. -/
  | switchNow (ops : List Byte)
  /-- SWITCH_AT (R99). Stores a switch time, or switches at once when the time is not later than the time counter. -/
  | switchAt (ops : List Byte)
  /-- SWITCH_CANCEL (R101). Removes a channel's schedule without setting MISSED. -/
  | switchCancel (ops : List Byte)
  /-- TIME_READ (R92). Returns the time counter. -/
  | timeRead (ops : List Byte)
  /-- RULE_WRITE (R50). Writes a SHADOW bank entry in full, giving omitted fields their write defaults. -/
  | ruleWrite (ops : List Byte)
  /-- RULE_PATCH (R51). Changes only the given fields of a SHADOW bank entry. -/
  | rulePatch (ops : List Byte)
  /-- RULE_CLEAR (R52). Puts a range of SHADOW bank entries in the cleared form. -/
  | ruleClear (ops : List Byte)
  /-- RULE_READ (R53). Returns an entry of either bank, with its hit counter for the ACTIVE bank. -/
  | ruleRead (ops : List Byte)
  /-- RULE_MOVE (R54). Begins copying a range of SHADOW entries one at a time, UP or DOWN. -/
  | ruleMove (ops : List Byte)
  /-- RULE_MOVE_COMPLETION (R54). The last copy of a move is made, the directive ends DONE and the runner goes on. -/
  | ruleMoveCompletion
  /-- TABLE_COMMIT (R55). Makes the SHADOW bank ACTIVE, copies it back to SHADOW and clears every hit counter. -/
  | tableCommit (ops : List Byte)
  /-- TABLE_REVERT (R56). Copies the ACTIVE bank into the SHADOW bank. -/
  | tableRevert (ops : List Byte)
  /-- PORT_SET (R114). Sets a port's XOFF, XON and pause enable and judges the pause record afresh. -/
  | portSet (ops : List Byte)
  /-- LANE_SET (R138). Sets the beacon interval, WTR, LOCKOUT, FORCE and MANUAL, then runs the arbiter once. -/
  | laneSet (ops : List Byte)
  /-- LOOP_SET (R144). Sets a lane's local loop mode, remote loop code, auto-accept and persistence. -/
  | loopSet (ops : List Byte)
  /-- TEST_SET (R149). Turns a lane's test generator on or off with its rate and inner length and clears the checker when turning on. -/
  | testSet (ops : List Byte)
  /-- TEST_INJECT (R151). Marks the next test frame with a PATTERN or TAG error. -/
  | testInject (ops : List Byte)
  /-- COUNT_SWEEP (R162). Reads, and optionally clears, the counters of up to 16 channels. -/
  | countSweep (ops : List Byte)
  /-- PORT_COUNTS (R163). Reads, and optionally clears, the counters and present state of ports, lanes and the agent. -/
  | portCounts (ops : List Byte)
  /-- STATUS_READ (R164). Returns part, lane, protection and agent state. -/
  | statusRead (ops : List Byte)
  /-- NOTICE_MASK (R166). Writes the twelve notice-kind masks. -/
  | noticeMask (ops : List Byte)
  /-- ID_READ (R173). Returns the identity store with the key and salt words read as zero. -/
  | idRead (ops : List Byte)
  /-- ID_BURN (R174). Begins burning one bit of the identity store, or ends DONE at once if the bit is already 1. -/
  | idBurn (ops : List Byte)
  /-- ID_BURN_COMPLETION (R174). The burned bit reads 1; burning LOCK relatches role and address, reloads channel 0, enters RUNNING and removes queued CLEAR requests. -/
  | idBurnCompletion
  /-- ZEROIZE (R176). Zeroizes the channel table and reloads channel 0 when LOCK is burned and the pin is high. -/
  | zeroize (ops : List Byte)
  /-- RESTART (R169). Ends DONE and holds a restart pending until its reply is sent or lost, or 1 s passes. -/
  | restart (ops : List Byte)
  /-- TIME_COUNTER_COUNT (R91). The time counter counts up by one each microsecond, from 2^64 − 1 to 0, in every part state except while RESET_N is held low. -/
  | timeCounterCount
deriving DecidableEq, Repr

end Sys2Proof
end

