-- ==== Sys2Proof/Config.lean ====
section
/-! DEFINITION. The numbers the manual fixes for every part, and the one value it leaves open, as an opaque constant. -/

namespace Sys2Proof.Config

/-- The envelope marker (R3). -/
def marker : BitVec 16 := 0x9A3C
/-- The type of a tagged frame (R41). -/
def tagType : BitVec 16 := 0x8100
/-- The type of a MAC control frame (R58). -/
def macControlType : BitVec 16 := 0x8808
/-- The opcode of a pause frame (R59). -/
def pauseOpcode : BitVec 16 := 0x0001
/-- The address of the part's own pause frames (R115). -/
def pauseAddr : Addr := 0x0180C2000001
/-- Shortest inner frame (R1). -/
def innerMin : Nat := 64
/-- Longest inner frame (R1). -/
def innerMax : Nat := 9216
/-- Longest envelope frame (R3). -/
def envelopeMax : Nat := 9244
/-- Shortest envelope frame with a tag (R3). -/
def envelopeMinTagged : Nat := 46
/-- Shortest CLEAR envelope frame (R3). -/
def envelopeMinClear : Nat := 30
/-- The last sequence of a load (R63). -/
def lastSeq : Nat := 2 ^ 48 - 1
/-- Default and greatest window size (R19). -/
def windowDefault : Nat := 256
def windowMax : Nat := 1024
/-- Default soft limit (R19). -/
def softLimitDefault : Nat := 2 ^ 47
/-- Default grace in ms (R19). -/
def graceDefault : Nat := 2000
/-- Capacity of an outbound buffer (R107). -/
def bufferCapacity : Nat := 524288
/-- XOFF bounds and defaults (R110). -/
def xoffMin : Nat := 9244
def xoffMax : Nat := 515044
def xoffDefault : Nat := 393216
def xonDefault : Nat := 262144
/-- Capacity of an inbound delivery queue (R116). -/
def deliveryCapacity : Nat := 131072
/-- Capacity of the return queue (R145). -/
def returnCapacity : Nat := 16384
/-- Places of a control queue (R123). -/
def controlPlaces : Nat := 4
/-- Places of the request queue (R157). -/
def requestPlaces : Nat := 8
/-- Most channel entries of a notice (R167). -/
def noticeEntries : Nat := 32
/-- Longest reply message (R159). -/
def replyMax : Nat := 9200
/-- Shortest envelope frame the part sends (R10). -/
def sentMin : Nat := 64

/-- The two type bytes of an entry record whose type match is absent (12.4.1 gives the flag and leaves these two bytes open), a free value for
each record written; the argument is the state's counter of free values (log 12). -/
opaque absentType : Nat → BitVec 16

end Sys2Proof.Config
end

