-- ==== Sys2Proof/Machine/Blocks.lean ====
section
/-! DEFINITION. What each block of the part holds (00_scope, block overview), as plain data, and each block's value after cold reset. -/

namespace Sys2Proof.Machine

/-! ### Timers -/

/-- A running timer: the time counter's value when it started and its length in microseconds. A stopped timer is `none` (log 8). -/
structure Timer where
  start : Time
  len : Nat
deriving DecidableEq, Repr

/-! ### Roles, states and codes -/

/-- The role latched from the identity store (R172). -/
inductive Role where
  | rack
  | campus
deriving DecidableEq, Repr

/-- The part state (R169). TESTING carries the self-check under way, if any: `some true` is the long one (R170). FAILED carries its STATUS code. -/
inductive PartState where
  | testing (check : Option Bool)
  | running
  | failed (code : Nat)
  | unprovisioned
deriving DecidableEq, Repr

/-- States of an outbound slot (R21). -/
inductive OutState where
  | empty
  | loaded
  | live
  | exhausted
  | draining
deriving DecidableEq, Repr

/-- States of an inbound slot (R22). -/
inductive InState where
  | empty
  | pending
  | current
  | fading
deriving DecidableEq, Repr

/-- The next sequence of an outbound slot: absent when EMPTY (R24), or 1..2^48 − 1, or spent (R21). -/
inductive NextSeq where
  | absent
  | seq (n : Seq)
  | spent
deriving DecidableEq, Repr

/-- Lane states (R127), which are also the lane conditions of beacons (R125). -/
inductive LaneState where
  | up
  | los
  | dark
  | looped
deriving DecidableEq, Repr

/-- Loop modes (R143). -/
inductive LoopMode where
  | none
  | line
  | cipher
deriving DecidableEq, Repr

/-- Loop field of a beacon (R125, R143). -/
inductive LoopField where
  | none
  | request
  | release
deriving DecidableEq, Repr

/-- A pending inject of the test generator (R149). -/
inductive Inject where
  | none
  | pattern
  | tag
deriving DecidableEq, Repr

/-- The pending pause frame of a port (R111). -/
inductive PendingPause where
  | none
  | on
  | off
deriving DecidableEq, Repr

/-- Request classes of a working lane, highest first (R132). -/
inductive ReqClass where
  | force
  | fail
  | manual
  | wait
  | none
deriving DecidableEq, Repr

/-- Outcomes of a directive (R158, 12.3). -/
inductive DirOutcome where
  | done
  | format
  | range
  | locked
  | state
  | busy
  | skipped
deriving DecidableEq, Repr

/-- The twelve notice kinds in the bit order of R177. -/
inductive Kind where
  | lane
  | protect
  | loop
  | test
  | queue
  | switched
  | soft
  | halted
  | first
  | faded
  | missed
  | authfail
deriving DecidableEq, Repr

/-- A set of notice kinds, one bit each in the order of R177. -/
abbrev KindSet := BitVec 12

/-! ### Counters -/

/-- The thirteen channel counters, in the order of R20. -/
inductive ChanCtr where
  | protectedFrames | protectedOctets | droppedNoKey | droppedHalted | droppedZeroized
  | verifiedFrames | verifiedOctets | authFail | replay | late | unknownEpoch | stale | returnMismatch
deriving DecidableEq, Repr

/-- The inner port counters: the sixteen of R61 and then the six of R119. -/
inductive PortCtr where
  | framesReceived | octetsReceived | badFcs | undersize | oversize | pauseReceived | controlDropped | malformed | toAgent
  | noMatch | discarded | bypassBlocked | protectRefused | protectDropped | protectedSent | bypassed
  | overflow | pauseSent | releaseSent | deliveryOverflow | sentFrames | sentOctets
deriving DecidableEq, Repr

/-- The lane counters: the seventeen of R90, the twelve of R141 and the five of R154. -/
inductive LaneCtr where
  | framesReceived | octetsReceived | badFcs | undersize | oversize | malformed | controlDropped | foreign | mgmtTransit
  | unselected | ownDropped | ownVerified | ownFailed | delivered | noMatch | discarded | bypassBlocked
  | framesSent | octetsSent | bufferFramesSent | beaconsSent | lostOnSwitch | beaconWithheld | beaconSkipped | testSkipped
  | peerBeacons | ownBeacons | beaconsIgnored | continuityLosses
  | loopOverrun | testGenerated | testWithheld | testGood | testBad
deriving DecidableEq, Repr

/-- The agent's counters, in the order of R163. -/
inductive AgentCtr where
  | requestsTaken | requestOverflow | requestMalformed | clearRefused | notRequest | repliesSent | replyLost | noticesSent | noticeLost
deriving DecidableEq, Repr

/-! ### Channels (R18 to R25) -/

/-- An outbound slot record (R21). `softHit` says that the soft-limit event of its load has come, which occurs once in a load (R64). -/
structure OutSlot where
  state : OutState
  key : Key
  salt : Salt
  epoch : Option Byte
  next : NextSeq
  load : Load
  inFlight : Nat
  kcv : Option Kcv
  switchTime : Option Time
  softHit : Bool
deriving DecidableEq, Repr

/-- An inbound slot record (R22) with its replay window (R80): the top and the mark set, ascending. -/
structure InSlot where
  state : InState
  key : Key
  salt : Salt
  epoch : Option Byte
  load : Load
  inFlight : Nat
  kcv : Option Kcv
  top : Nat
  marks : List Nat
  firstVerify : Option Time
  graceTimer : Option Timer
deriving DecidableEq, Repr

/-- The config of a channel (R19). -/
structure ChanConfig where
  window : Nat
  softLimit : Nat
  auto : Bool
  grace : Nat
  returnCheck : Bool
deriving DecidableEq, Repr

/-- A channel record (R18). -/
structure Channel where
  isOpen : Bool
  config : ChanConfig
  schedule : Option Time
  outA : OutSlot
  outB : OutSlot
  inA : InSlot
  inB : InSlot
  counters : Vector Counter 13
deriving DecidableEq, Repr

/-- The staging buffer (R25). -/
structure Staging where
  valid : Bool
  key : Key
  salt : Salt
  epoch : Byte
deriving DecidableEq, Repr

/-! ### Classifier (R38 to R45) -/

/-- Direction of an entry (R39). -/
inductive Direction where
  | out
  | inb
  | both
deriving DecidableEq, Repr

/-- VLAN match of an entry (R39). -/
inductive VlanMatch where
  | untagged
  | any
  | range (lo hi : BitVec 12)
deriving DecidableEq, Repr

/-- Action of an entry (R39). -/
inductive Action where
  | protect (c : Chan)
  | bypass
  | discard
deriving DecidableEq, Repr

/-- An entry of a rule bank (R39). -/
structure Entry where
  valid : Bool
  direction : Direction
  ports : BitVec 4
  vlan : VlanMatch
  etype : Option (BitVec 16)
  action : Action
deriving DecidableEq, Repr

abbrev Bank := Vector Entry 256

/-- What the path of a frame does on a lookup's result (R46, R47). `blocked` is a BYPASS turned by NO-BYPASS (R45). -/
inductive Verdict where
  | protect (c : Chan)
  | bypass
  | blocked
  | discard
  | noMatch
deriving DecidableEq, Repr

/-- A lookup under way: the winning index and the verdict by the bank and the NO-BYPASS flag as they stood when it began (R44, R45; log 7),
and the model's number of that bank. -/
structure Lookup where
  hit : Option (Fin 256)
  verdict : Verdict
  gen : Nat
deriving DecidableEq, Repr

/-- A RULE-MOVE under way (R54). -/
structure Move where
  src : Nat
  dst : Nat
  count : Nat
  up : Bool
deriving DecidableEq, Repr

/-! ### The envelope header and the cipher core's work records -/

/-- The envelope header after the marker (R4). -/
structure Header where
  control : Byte
  epoch : Byte
  chanField : BitVec 16
  seq : Seq
deriving DecidableEq, Repr

/-- The two frame operations of the cipher core. -/
inductive CipherOp where
  | protect
  | verify
deriving DecidableEq, Repr

/-- A work record (R12). -/
structure Work where
  origin : Origin
  op : CipherOp
  chan : Chan
  letter : Letter
  load : Load
  seq : Seq
  key : Key
  salt : Salt
deriving DecidableEq, Repr

/-! ### Frames on their way, by source (R13) -/

/-- Where a frame of an inner port's outbound order stands. -/
inductive OutStage where
  | lookup (r : Lookup)
  | protecting (w : Work) (h : Header)
  | passed (c : Chan) (env : Frame)
  | bypass
deriving DecidableEq, Repr

/-- A frame of an inner port's outbound order: the inner frame and its stage (R13). -/
structure OutItem where
  frame : Frame
  stage : OutStage
deriving DecidableEq, Repr

/-- What is handed on when every earlier frame of the lane is resolved (R85 to R87). `octets` is the envelope length less 28. -/
inductive HandOn where
  | traffic (inner : Frame) (port : PortId) (c : Chan) (octets : Nat) (own : Bool)
  | clear (frame : Frame) (port : PortId)
  | transit (frame : Frame) (port : PortId)
  | request (msg : List Byte) (sa : Addr) (octets : Nat)
  | beacon (payload : List Byte) (origin : Bool) (octets : Nat) (own : Bool)
  | test (payload : List Byte) (octets : Nat) (own : Bool)
  | testFailed
deriving DecidableEq, Repr

/-- A frame of a lane's inbound order, or of an inner port's management order. A clear frame waits for its lookup to begin and is then under it; a
verified traffic frame with RETURN-CHECK on waits for its return check to begin, as `recovered`, and is then under it, as `checking` (R44, R48). -/
inductive InItem where
  | clear (frame : Frame) (port : PortId)
  | lookup (frame : Frame) (port : PortId) (r : Lookup)
  | verifying (w : Work) (frame : Frame) (own : Bool) (port : Option PortId)
  | recovered (inner : Frame) (port : PortId) (c : Chan) (octets : Nat) (own : Bool)
  | checking (inner : Frame) (port : PortId) (c : Chan) (octets : Nat) (own : Bool) (r : Lookup)
  | ready (h : HandOn)
deriving DecidableEq, Repr

/-- A frame that a lane unit originates (R124, R150). A test frame carries whether it took a TAG inject. -/
inductive LinkKind where
  | beacon
  | test (tagInject : Bool)
deriving DecidableEq, Repr

/-- A beacon or test frame in protection, with the own address it was built with (R15), or passed and waiting to be offered (R123). -/
inductive UnitItem where
  | protecting (kind : LinkKind) (w : Work) (h : Header) (addr : Addr) (payload : List Byte)
  | passed (kind : LinkKind) (env : Frame)
deriving DecidableEq, Repr

/-! ### Ports (R107 to R119) -/

/-- A frame of an outbound buffer (R107). -/
structure BufFrame where
  isProtected : Bool
  bytes : Frame
deriving DecidableEq, Repr

/-- A frame of a delivery queue, or in transmission on a port. `final` marks the reply of a request that ended with RESTART (R169). -/
structure PortFrame where
  bytes : Frame
  final : Bool
deriving DecidableEq, Repr

/-- One inner port with its receiver, outbound buffer, pause record, delivery queue and transmitter. -/
structure Port where
  counters : Vector Counter 22
  outLine : List OutItem
  mgmtLine : List InItem
  buffer : List BufFrame
  xoff : Nat
  xon : Nat
  pauseEnable : Bool
  inForce : Bool
  announced : Bool
  pendingPause : PendingPause
  refresh : Option Timer
  queue : List PortFrame
  hold : Option Timer
  tx : Option PortFrame
deriving DecidableEq, Repr

/-! ### Lanes (R121, R143, R149, R153) -/

/-- Kinds of control queue frame (R121). -/
inductive CtlKind where
  | beacon
  | reply (final : Bool)
  | notice
  | test
deriving DecidableEq, Repr

/-- A frame of a control queue. -/
structure CtlFrame where
  kind : CtlKind
  bytes : Frame
deriving DecidableEq, Repr

/-- Where a frame in transmission on a lane came from (R121, R122). -/
inductive TxSource where
  | control (kind : CtlKind)
  | buffer (n : PortId) (isProtected : Bool)
  | returned
deriving DecidableEq, Repr

/-- A frame in transmission on a lane. -/
structure LaneTx where
  bytes : Frame
  source : TxSource
deriving DecidableEq, Repr

/-- One lane unit with its receiver. -/
structure Lane where
  counters : Vector Counter 34
  state : LaneState
  peerRun : Nat
  continuity : Option Timer
  beaconTimer : Option Timer
  control : List CtlFrame
  tx : Option LaneTx
  peerReport : Option (LaneState × Time)
  loopMode : LoopMode
  loopField : LoopField
  autoAccept : Bool
  persistence : Nat
  loopRun : Option (LoopField × Time)
  returnQueue : List Frame
  genOn : Bool
  rate : Nat
  innerLen : Nat
  pattern : BitVec 23
  inject : Inject
  rateTimer : Option Timer
  locked : Bool
  goodRun : Nat
  judged : List Bool
  unitLine : List UnitItem
  inLine : List InItem
deriving DecidableEq, Repr

/-! ### Protection controller (R130) -/

structure Protection where
  interval : Nat
  classes : Vector ReqClass 4
  force : Option PortId
  manual : Option PortId
  lockout : Bool
  wtrSetting : Nat
  wtrTimer : Option Timer
  farFail : BitVec 5
  selection : Option PortId
  steering : Option PortId
  echo : Option PortId
  candidate : Option PortId
  adoptCount : Nat
deriving DecidableEq, Repr

/-! ### Management agent (R156 to R167) -/

/-- A directive of a request: its code and its operand bytes (R157). -/
structure Directive where
  code : Byte
  ops : List Byte
deriving DecidableEq, Repr

/-- A queued request (R157). -/
structure Request where
  id : BitVec 16
  place : Place
  sa : Addr
  clear : Bool
  dirs : List Directive
deriving DecidableEq, Repr

/-- An outcome record (R159). -/
structure Record where
  code : Byte
  outcome : DirOutcome
  data : List Byte
deriving DecidableEq, Repr

/-- The request the runner holds: the directives not yet taken and the records so far (R158, R159). -/
structure Run where
  id : BitVec 16
  place : Place
  sa : Addr
  rest : List Directive
  records : List Record
deriving DecidableEq, Repr

/-- A built reply: its place and address, its message, and whether a RESTART waits for it (R160, R169). -/
structure Reply where
  place : Place
  sa : Addr
  msg : List Byte
  final : Bool
deriving DecidableEq, Repr

/-- What the frame in the sender's hand is. A notice keeps what it reported, which a loss sets again (R167). -/
inductive HandKind where
  | reply (final : Bool)
  | notice (devices : KindSet) (entries : List (Chan × KindSet))
deriving DecidableEq, Repr

/-- Where the frame in hand stands: in protection, or ready, with the octets to count on channel 0 when it was protected (R71). -/
inductive HandStage where
  | protecting (w : Work) (h : Header) (da sa : Addr) (msg : List Byte)
  | ready (bytes : Frame) (octets : Option Nat)
deriving DecidableEq, Repr

/-- The frame in the sender's hand (R161). -/
structure Hand where
  place : Place
  kind : HandKind
  stage : HandStage
deriving DecidableEq, Repr

structure Agent where
  queue : List Request
  run : Option Run
  reply : Option Reply
  hand : Option Hand
  restart : Option Timer
  devices : KindSet
  fifo : List (Chan × KindSet)
  masks : KindSet
  holdoff : Option Timer
  dest : Option (Place × Addr)
  counters : Vector Counter 9
deriving DecidableEq, Repr

/-! ### Identity store (R172, R174) -/

abbrev Store := Vector (BitVec 16) 32

/-- A burn in progress (R174). -/
structure Burn where
  word : Fin 32
  bit : Fin 16
  timer : Timer
deriving DecidableEq, Repr

/-! ### Values after cold reset -/

def OutSlot.cold : OutSlot :=
  { state := .empty, key := 0, salt := 0, epoch := none, next := .absent, load := 0, inFlight := 0, kcv := none, switchTime := none, softHit := false }

def InSlot.cold : InSlot :=
  { state := .empty, key := 0, salt := 0, epoch := none, load := 0, inFlight := 0, kcv := none, top := 0, marks := [],
    firstVerify := none, graceTimer := none }

/-- The defaults of R19. -/
def ChanConfig.cold : ChanConfig :=
  { window := Config.windowDefault, softLimit := Config.softLimitDefault, auto := true, grace := Config.graceDefault, returnCheck := false }

/-- A channel record after cold reset (R36). -/
def Channel.cold (isOpen : Bool) : Channel :=
  { isOpen, config := ChanConfig.cold, schedule := none, outA := OutSlot.cold, outB := OutSlot.cold, inA := InSlot.cold, inB := InSlot.cold,
    counters := Vector.replicate 13 0 }

/-- The channel table after cold reset: channels 0 and 1 OPEN, the rest CLOSED (R17, R36). -/
def coldChannels : Vector Channel 1024 :=
  ((Vector.replicate 1024 (Channel.cold false)).set 0 (Channel.cold true)).set 1 (Channel.cold true)

/-- The staging buffer after cold reset (R25). -/
def Staging.cold : Staging := { valid := false, key := 0, salt := 0, epoch := 0 }

/-- The cleared form of an entry (R39). -/
def Entry.cleared : Entry :=
  { valid := false, direction := .both, ports := 0xF, vlan := .any, etype := none, action := .discard }

/-- A rule bank after cold reset (R38). -/
def coldBank : Bank := Vector.replicate 256 Entry.cleared

/-- An inner port after cold reset (R61, R107, R110, R116). -/
def Port.cold : Port :=
  { counters := Vector.replicate 22 0, outLine := [], mgmtLine := [], buffer := [], xoff := Config.xoffDefault, xon := Config.xonDefault,
    pauseEnable := true, inForce := false, announced := false, pendingPause := .none, refresh := none, queue := [], hold := none, tx := none }

/-- A lane unit after cold reset; `los` is the level of its LOS pin (R121, R143, R149, R153). -/
def Lane.cold (los : Bool) : Lane :=
  { counters := Vector.replicate 34 0, state := if los then .los else .dark, peerRun := 0, continuity := none, beaconTimer := none,
    control := [], tx := none, peerReport := none, loopMode := .none, loopField := .none, autoAccept := true, persistence := 5,
    loopRun := none, returnQueue := [], genOn := false, rate := 1000, innerLen := 64, pattern := BitVec.allOnes 23, inject := .none,
    rateTimer := none, locked := false, goodRun := 0, judged := [], unitLine := [], inLine := [] }

/-- The five lane units after cold reset, by the LOS pins. -/
def coldLanes (los : BitVec 5) : Vector Lane 5 :=
  #v[Lane.cold (los.getLsbD 0), Lane.cold (los.getLsbD 1), Lane.cold (los.getLsbD 2), Lane.cold (los.getLsbD 3), Lane.cold (los.getLsbD 4)]

/-- The protection controller after cold reset: every lane is in LOS or DARK, so every class is FAIL (R130, R139). -/
def Protection.cold : Protection :=
  { interval := 10, classes := Vector.replicate 4 .fail, force := none, manual := none, lockout := false, wtrSetting := 60, wtrTimer := none,
    farFail := 0, selection := none, steering := none, echo := none, candidate := none, adoptCount := 0 }

/-- The agent after cold reset (R156, R157, R163, R165 to R167). -/
def Agent.cold : Agent :=
  { queue := [], run := none, reply := none, hand := none, restart := none, devices := 0, fifo := [], masks := 0, holdoff := none,
    dest := none, counters := Vector.replicate 9 0 }

end Sys2Proof.Machine
end

