-- ==== Sys2Proof/Machine/Bytes.lean ====
section
/-! DEFINITION. Byte order and bit order: numbers as bytes, most significant first (00_scope), and the Ethernet frame check sequence (R1; log 4). -/

namespace Sys2Proof.Machine

/-- The low `n` bytes of `v`, most significant first. -/
def beBytes : Nat → Nat → List Byte
  | 0, _ => []
  | n + 1, v => BitVec.ofNat 8 (v >>> (8 * n)) :: beBytes n v

/-- The number that bytes spell, most significant first. -/
def beNat (l : List Byte) : Nat := l.foldl (fun a b => a * 256 + b.toNat) 0

/-- Bytes `i` to `i + n - 1` of a string. -/
def slice (l : List Byte) (i n : Nat) : List Byte := (l.drop i).take n

/-- The number in bytes `i` to `i + n - 1`. -/
def numAt (l : List Byte) (i n : Nat) : Nat := beNat (slice l i n)

/-- One byte of a flag. -/
def flagByte (b : Bool) : Byte := if b then 1 else 0

/-- Zero bytes appended until the length is `n`. -/
def padTo (n : Nat) (l : List Byte) : List Byte := l ++ List.replicate (n - l.length) 0

/-- One bit of the Ethernet CRC-32, reflected form (log 4). -/
def crcBit (c : Nat) : Nat := if c % 2 = 1 then (c >>> 1) ^^^ 0xEDB88320 else c >>> 1

/-- One byte of the Ethernet CRC-32. -/
def crcByte (c : Nat) (b : Byte) : Nat :=
  crcBit (crcBit (crcBit (crcBit (crcBit (crcBit (crcBit (crcBit (c ^^^ b.toNat))))))))

/-- The Ethernet CRC-32 of a string of bytes. -/
def crc32 (l : List Byte) : Nat := (l.foldl crcByte 0xFFFFFFFF) ^^^ 0xFFFFFFFF

/-- The four FCS bytes over a string, in the order they go on the wire: the reflected CRC, low byte first (log 4). -/
def fcsOf (l : List Byte) : List Byte :=
  let c := crc32 l
  [BitVec.ofNat 8 c, BitVec.ofNat 8 (c >>> 8), BitVec.ofNat 8 (c >>> 16), BitVec.ofNat 8 (c >>> 24)]

/-- A frame from everything before its FCS. -/
def withFcs (body : List Byte) : Frame := body ++ fcsOf body

/-- Everything of a frame before its FCS. -/
def frameBody (f : Frame) : List Byte := f.take (f.length - 4)

/-- The FCS of a frame matches (R58 test 2, R72 test 3). A frame of fewer than 4 bytes has no FCS that matches (log 29). -/
def fcsGood (f : Frame) : Bool := 4 ≤ f.length && f.drop (f.length - 4) == fcsOf (frameBody f)

end Sys2Proof.Machine
end

