-- ==== Sys2Proof/Machine/Cipher.lean ====
section
/-! DEFINITION. The cipher core: AES with a 256-bit key in Galois/counter mode (R8 to R11, R14). The manual names the algorithm and does not
restate it (00_scope); what stands here is AES of FIPS 197 and GCM of SP 800-38D (log 3). -/

namespace Sys2Proof.Machine

/-! ### AES-256 (FIPS 197) -/

/-- The AES S-box, 32 entries a row: entry `x` stands in bits 8·(x mod 32) of row `x / 32`. -/
def sboxRow : Nat → Nat
  | 0 => 0xC072A49CAFA2D4ADF04759FA7DC982CA76ABD7FE2B670130C56F6BF27B777C63
  | 1 => 0x75B227EBE28012079A059618C323C7041531D871F1E5A534CCF73F362693FDB7
  | 2 => 0xCF584C4A39BECB6A5BB1FC20ED00D153842FE329B3D63B52A05A6E1B1A2C8309
  | 3 => 0xD2F3FF1021DAB6BCF5389D928F40A351A89F3C507F02F94585334D43FBAAEFD0
  | 4 => 0xDB0B5EDE14B8EE4688902A22DC4F816073195D643D7EA7C41744975FEC130CCD
  | 5 => 0x08AE7A65EAF4566CA94ED58D6D37C8E779E4959162ACD3C25C2406490A3A32E0
  | 6 => 0x9E1DC186B95735610EF6034866B53E708A8BBD4B1F74DDE8C6B4A61C2E2578BA
  | _ => 0x16BB54B00F2D99416842E6BF0D89A18CDF2855CEE9871E9B948ED9691198F8E1

/-- SubBytes of one byte. -/
def subByte (b : Byte) : Byte := BitVec.ofNat 8 (sboxRow (b.toNat / 32) >>> (8 * (b.toNat % 32)))

/-- Multiplication by x in the field of AES. -/
def xtime (b : Byte) : Byte := if b.msb then (b <<< 1) ^^^ 0x1B else b <<< 1

/-- Bytewise exclusive-or. -/
def xorBytes (x y : List Byte) : List Byte := List.zipWith (· ^^^ ·) x y

/-- ShiftRows on a state of 16 bytes, column by column. -/
def shiftRows (st : List Byte) : List Byte :=
  [0, 5, 10, 15, 4, 9, 14, 3, 8, 13, 2, 7, 12, 1, 6, 11].map (fun i => st.getD i 0)

/-- MixColumns. -/
def mixColumns : List Byte → List Byte
  | a :: b :: c :: d :: rest =>
    (xtime a ^^^ xtime b ^^^ b ^^^ c ^^^ d) :: (a ^^^ xtime b ^^^ xtime c ^^^ c ^^^ d) ::
    (a ^^^ b ^^^ xtime c ^^^ xtime d ^^^ d) :: (xtime a ^^^ a ^^^ b ^^^ c ^^^ xtime d) :: mixColumns rest
  | _ => []

/-- Four bytes of the key schedule's word `i` in a group of 32 bytes. -/
def keyWord (g : List Byte) (i : Nat) : List Byte := slice g (4 * i) 4

/-- The next eight words of the AES-256 key schedule. -/
def nextGroup (rcon : Byte) (g : List Byte) : List Byte :=
  let t := (keyWord g 7).map subByte
  let w0 := xorBytes (keyWord g 0) (xorBytes [t.getD 1 0, t.getD 2 0, t.getD 3 0, t.getD 0 0] [rcon, 0, 0, 0])
  let w1 := xorBytes (keyWord g 1) w0
  let w2 := xorBytes (keyWord g 2) w1
  let w3 := xorBytes (keyWord g 3) w2
  let w4 := xorBytes (keyWord g 4) (w3.map subByte)
  let w5 := xorBytes (keyWord g 5) w4
  let w6 := xorBytes (keyWord g 6) w5
  let w7 := xorBytes (keyWord g 7) w6
  w0 ++ w1 ++ w2 ++ w3 ++ w4 ++ w5 ++ w6 ++ w7

/-- The key schedule as pairs of round keys, one pair for each group of eight words. -/
def schedule : List Byte → List Byte → List (List Byte)
  | [], g => [g.take 16]
  | r :: rs, g => g.take 16 :: g.drop 16 :: schedule rs (nextGroup r g)

/-- The fifteen round keys of AES-256. -/
def roundKeys (k : Key) : List (List Byte) :=
  schedule [0x01, 0x02, 0x04, 0x08, 0x10, 0x20, 0x40] (beBytes 32 k.toNat)

/-- The rounds after the first key addition; the last round has no MixColumns. -/
def rounds : List (List Byte) → List Byte → List Byte
  | [], st => st
  | [k], st => xorBytes (shiftRows (st.map subByte)) k
  | k :: ks, st => rounds ks (xorBytes (mixColumns (shiftRows (st.map subByte))) k)

/-- AES-256 encryption of one block of 16 bytes. -/
def aes (k : Key) (block : List Byte) : List Byte :=
  match roundKeys k with
  | [] => block
  | k0 :: ks => rounds ks (xorBytes block k0)

/-! ### Galois/counter mode (SP 800-38D) -/

/-- The multiplication of GCM's field, from bit `n - 1` of `x` down. -/
def gmulFrom (x : BitVec 128) : Nat → BitVec 128 → BitVec 128 → BitVec 128
  | 0, z, _ => z
  | n + 1, z, v =>
    gmulFrom x n (if x.getLsbD n then z ^^^ v else z)
      (if v.getLsbD 0 then (v >>> 1) ^^^ 0xE1000000000000000000000000000000 else v >>> 1)

/-- Multiplication in GCM's field. -/
def gmul (x y : BitVec 128) : BitVec 128 := gmulFrom x 128 0 y

/-- A string as 16-byte blocks, the last one padded with zero bytes; `fuel` is at least the number of blocks. -/
def gcmBlocks : Nat → List Byte → List (BitVec 128)
  | 0, _ => []
  | _, [] => []
  | fuel + 1, l => BitVec.ofNat 128 (beNat (padTo 16 (l.take 16))) :: gcmBlocks fuel (l.drop 16)

/-- GHASH of a list of blocks under the hash key `h`. -/
def ghash (h : BitVec 128) (blocks : List (BitVec 128)) : BitVec 128 := blocks.foldl (fun y x => gmul (y ^^^ x) h) 0

/-- The counter block `i` of a 12-byte nonce. -/
def counterBlock (nonce : List Byte) (i : Nat) : List Byte := nonce ++ beBytes 4 i

/-- Counter mode from counter `i`; `fuel` is at least the number of blocks. -/
def ctr (k : Key) (nonce : List Byte) : Nat → Nat → List Byte → List Byte
  | 0, _, _ => []
  | _, _, [] => []
  | fuel + 1, i, l => xorBytes (l.take 16) (aes k (counterBlock nonce i)) ++ ctr k nonce fuel (i + 1) (l.drop 16)

/-- Encryption and decryption of the text of a frame: counter mode from counter 2. -/
def gcmText (k : Key) (nonce text : List Byte) : List Byte := ctr k nonce text.length 2 text

/-- The 16-byte tag over authenticated data and ciphertext (R9, R10). -/
def gcmTag (k : Key) (nonce aad ct : List Byte) : List Byte :=
  let h := BitVec.ofNat 128 (beNat (aes k (List.replicate 16 0)))
  let s := ghash h (gcmBlocks aad.length aad ++ gcmBlocks ct.length ct ++ [BitVec.ofNat 128 (aad.length * 8 * 2 ^ 64 + ct.length * 8)])
  xorBytes (beBytes 16 s.toNat) (aes k (counterBlock nonce 1))

/-- Protect: ciphertext and tag (R10). -/
def protectText (k : Key) (nonce aad pt : List Byte) : List Byte × List Byte :=
  let ct := gcmText k nonce pt
  (ct, gcmTag k nonce aad ct)

/-- Verify: the plaintext, or a failure (R11). -/
def verifyText (k : Key) (nonce aad ct tag : List Byte) : Option (List Byte) :=
  if tag = gcmTag k nonce aad ct then some (gcmText k nonce ct) else none

/-- The key check value of a key: the first 3 bytes of the encryption of a block of zeros (R14). -/
def kcvOf (k : Key) : Kcv := BitVec.ofNat 24 (beNat ((aes k (List.replicate 16 0)).take 3))

/-! ### The known-answer test (R16) -/

/-- A tag with one bit inverted, the first (R16, R150 step 5). -/
def invertTag (tag : List Byte) : List Byte :=
  match tag with
  | [] => []
  | t :: ts => (t ^^^ 0x80) :: ts

/-- The four answers of a known-answer test: the protect, the verify of its result, the verify of a copy with one tag bit inverted, and the key check
value (R16). -/
structure KnownAnswers where
  sealed : List Byte × List Byte
  opened : Option (List Byte)
  tampered : Option (List Byte)
  kcv : Kcv
deriving DecidableEq, Repr

/-- The fixed internal values the test runs against: a key of zeros, a nonce of zeros, no authenticated data and one block of zeros (log 22). -/
def katKey : Key := 0
def katNonce : List Byte := List.replicate 12 0
def katText : List Byte := List.replicate 16 0

/-- The stored expected ciphertext and tag, the published ones for these values (log 22). -/
def katSealed : List Byte × List Byte :=
  ([0xCE, 0xA7, 0x40, 0x3D, 0x4D, 0x60, 0x6B, 0x6E, 0x07, 0x4E, 0xC5, 0xD3, 0xBA, 0xF3, 0x9D, 0x18],
   [0xD0, 0xD1, 0xC8, 0xA7, 0x99, 0x99, 0x6B, 0xF0, 0x26, 0x5B, 0x98, 0xB5, 0xD4, 0x8A, 0xB9, 0x19])

/-- The stored expected answers: the verify succeeds, the verify of the altered copy fails (R16). -/
def expectedAnswers : KnownAnswers := { sealed := katSealed, opened := some katText, tampered := none, kcv := 0xDC95C0 }

/-- What the cipher core answers (R16). -/
def coreAnswers : KnownAnswers :=
  let r := protectText katKey katNonce [] katText
  { sealed := r, opened := verifyText katKey katNonce [] r.1 r.2, tampered := verifyText katKey katNonce [] r.1 (invertTag r.2), kcv := kcvOf katKey }

/-- The known-answer test: each answer is compared with its stored value (R16). `sound` says that the core's hardware answers as its algorithms do;
on a core that does not, an answer differs (log 22). -/
def knownAnswerTest (sound : Bool) : Bool := sound && coreAnswers == expectedAnswers

end Sys2Proof.Machine
end

