-- ==== Sys2Proof/Machine/Envelope.lean ====
section
/-! DEFINITION. Inner frames, line frames and envelope frames: reading them, judging their headers and building them (chapter 1, 12.1, 12.6). -/

namespace Sys2Proof.Machine

/-! ### Reading a frame (R1 to R3) -/

/-- Destination address. -/
def frameDa (f : Frame) : Addr := BitVec.ofNat 48 (numAt f 0 6)

/-- Source address. -/
def frameSa (f : Frame) : Addr := BitVec.ofNat 48 (numAt f 6 6)

/-- Everything between the SA and the FCS (R1). -/
def innerBytes (f : Frame) : List Byte := (frameBody f).drop 12

/-- Two bytes of a string as a number; a byte beyond the end reads as zero (R41). -/
def word16 (l : List Byte) (i : Nat) : BitVec 16 := BitVec.ofNat 16 ((l.getD i 0).toNat * 256 + (l.getD (i + 1) 0).toNat)

/-- The frame carries the envelope marker in the two bytes that follow the SA (R3). They are read before the FCS only, so a frame of fewer than 18 bytes
carries none (log 42). -/
def hasMarker (f : Frame) : Bool := 2 ≤ (innerBytes f).length && word16 (innerBytes f) 0 == Config.marker

/-- The VLAN identity of the inner bytes, if they are tagged (R41). -/
def vlanOf (inner : List Byte) : Option (BitVec 12) :=
  if word16 inner 0 = Config.tagType then some ((word16 inner 2).setWidth 12) else none

/-- The type of the inner bytes (R41). -/
def typeOf (inner : List Byte) : BitVec 16 := if word16 inner 0 = Config.tagType then word16 inner 4 else word16 inner 0

/-- The frame is a MAC control frame: untagged, type 0x8808 (R58 test 5, R72 test 6). -/
def isMacControl (f : Frame) : Bool := word16 (innerBytes f) 0 == Config.macControlType

/-! ### The envelope header (R4 to R7, 12.1) -/

/-- The header that stands in a frame, read after the marker. -/
def headerOf (f : Frame) : Header :=
  let b := innerBytes f
  { control := b.getD 2 0, epoch := b.getD 3 0, chanField := word16 b 4, seq := BitVec.ofNat 48 (numAt b 6 6) }

/-- The twelve bytes of a header, marker first. -/
def headerBytes (h : Header) : List Byte :=
  beBytes 2 Config.marker.toNat ++ [h.control, h.epoch] ++ beBytes 2 h.chanField.toNat ++ beBytes 6 h.seq.toNat

def headerVersion (h : Header) : BitVec 2 := h.control.extractLsb' 6 2
def headerClear (h : Header) : Bool := h.control.getLsbD 5
def headerBeacon (h : Header) : Bool := h.control.getLsbD 4
def headerTest (h : Header) : Bool := h.control.getLsbD 3
def headerReserved (h : Header) : Bool := h.control.extractLsb' 0 3 != 0 || h.chanField.extractLsb' 10 5 != 0
/-- The origin bit (R5). -/
def headerOrigin (h : Header) : Bool := h.chanField.getLsbD 15
/-- The channel number (R4). -/
def headerChan (h : Header) : Chan := ⟨(h.chanField.extractLsb' 0 10).toNat, (h.chanField.extractLsb' 0 10).isLt⟩

/-- The flag combinations a receiver accepts on a channel (R6). -/
def flagsAccepted (h : Header) : Bool :=
  if headerChan h = 0 then !headerBeacon h && !headerTest h
  else if headerChan h = 1 then !headerClear h && (headerBeacon h != headerTest h)
  else !headerClear h && !headerBeacon h && !headerTest h

/-- The shortest envelope frame for a header's CLEAR flag (R3). -/
def envelopeMin (h : Header) : Nat := if headerClear h then Config.envelopeMinClear else Config.envelopeMinTagged

/-- A frame that carries the marker is MALFORMED (R7). -/
def malformed (f : Frame) : Bool :=
  let h := headerOf f
  headerVersion h != 1 || headerReserved h || !flagsAccepted h || h.seq == 0 || f.length < envelopeMin h

/-- The channel field the part writes: origin bit, zero reserved bits, channel number (R4, R5). -/
def chanFieldOf (origin : Bool) (c : Chan) : BitVec 16 := BitVec.ofNat 16 ((if origin then 0x8000 else 0) + c.val)

/-- Control bytes the part writes (12.1). -/
def controlPlain : Byte := 0x40
def controlClear : Byte := 0x60
def controlBeacon : Byte := 0x50
def controlTest : Byte := 0x48

/-- The origin bit of a role (R5). -/
def roleBit (r : Role) : Bool := r == .campus

/-! ### Protect and verify on frames (R8 to R11) -/

/-- The nonce: salt, channel field, sequence (R8). -/
def nonceOf (salt : Salt) (h : Header) : List Byte := beBytes 4 salt.toNat ++ beBytes 2 h.chanField.toNat ++ beBytes 6 h.seq.toNat

/-- The twelve bytes of DA and SA. -/
def addrBytes (da sa : Addr) : List Byte := beBytes 6 da.toNat ++ beBytes 6 sa.toNat

/-- The envelope frame of a text protected on channel 0 or a traffic channel (R2, R9, R10). -/
def sealText (key : Key) (salt : Salt) (da sa : Addr) (h : Header) (text : List Byte) : Frame :=
  let aad := addrBytes da sa ++ headerBytes h
  let r := protectText key (nonceOf salt h) aad text
  withFcs (aad ++ r.1 ++ r.2)

/-- The envelope frame of an authenticated channel 1 message; `inject` inverts the first bit of its tag (R9, R10, R150). -/
def sealLink (key : Key) (salt : Salt) (da sa : Addr) (h : Header) (payload : List Byte) (inject : Bool) : Frame :=
  let aad := addrBytes da sa ++ headerBytes h ++ payload
  let tag := (protectText key (nonceOf salt h) aad []).2
  withFcs (aad ++ (if inject then invertTag tag else tag))

/-- A CLEAR frame (R6, R9): no tag. -/
def clearFrame (da sa : Addr) (h : Header) (msg : List Byte) : Frame := withFcs (addrBytes da sa ++ headerBytes h ++ msg)

/-- The inner part of an envelope frame with a tag: between the header and the tag. -/
def sealedPart (f : Frame) : List Byte := (frameBody f).drop 24 |>.take ((frameBody f).length - 40)

/-- The tag of an envelope frame. -/
def sealedTag (f : Frame) : List Byte := (frameBody f).drop ((frameBody f).length - 16)

/-- The inner part of a CLEAR frame. -/
def clearPart (f : Frame) : List Byte := (frameBody f).drop 24

/-- The first 24 bytes of a frame: DA, SA and header, as received (R9). -/
def headBytes (f : Frame) : List Byte := (frameBody f).take 24

/-- Verify an envelope frame under a key and salt (R9, R11). On channel 1 the plaintext is empty and the inner part is authenticated. -/
def openFrame (key : Key) (salt : Salt) (f : Frame) : Option (List Byte) :=
  let h := headerOf f
  if headerChan h = 1 then
    (verifyText key (nonceOf salt h) (headBytes f ++ sealedPart f) [] (sealedTag f)).map (fun _ => sealedPart f)
  else verifyText key (nonceOf salt h) (headBytes f) (sealedPart f) (sealedTag f)

/-- The recovered inner frame: the envelope's DA and SA, the plaintext padded so that the frame has 64 bytes, a new FCS (R2). -/
def recoveredFrame (f : Frame) (text : List Byte) : Frame := withFcs (padTo 60 (f.take 12 ++ text))

/-- A message padded so that its envelope frame has 64 bytes; `overhead` is 44 under a tag and 28 in a CLEAR frame (R10). -/
def padMessage (overhead : Nat) (msg : List Byte) : List Byte := padTo (Config.sentMin - overhead) msg

/-- A pause frame of the part (R115, 12.6). -/
def pauseFrame (sa : Addr) (quanta : Nat) : Frame :=
  withFcs (padTo 60 (addrBytes Config.pauseAddr sa ++ beBytes 2 Config.macControlType.toNat ++ beBytes 2 Config.pauseOpcode.toNat ++ beBytes 2 quanta))

end Sys2Proof.Machine
end

