-- ==== Sys2Proof/Machine/State.lean ====
section
/-! DEFINITION. The state of the part: every block's state, the pins, and the commands that are waiting. Plain data. -/

namespace Sys2Proof.Machine

/-- Reasons the part stops with a fault. There are none: a failed self-check is the part state FAILED, a next state (R169, R170). -/
inductive Fault where
deriving DecidableEq, Repr

/-- Reasons the model refuses a command. -/
inductive Refusal where
  /-- Raised by `exec`'s arm for a command that has no meaning yet. Safe: the model stops where the part goes on. No arm raises it now. -/
  | notModelled (mnemonic : String)
deriving DecidableEq, Repr

structure State where
  pins : Pins
  part : PartState
  role : Role
  ownAddr : Addr
  store : Store
  burn : Option Burn
  time : Time
  channels : Vector Channel 1024
  staging : Staging
  active : Bank
  shadow : Bank
  hits : Vector Counter 256
  bankGen : Nat
  move : Option Move
  ports : Vector Port 4
  lanes : Vector Lane 5
  prot : Protection
  agent : Agent
  lastRecord : Option Record
  free : Nat
  pending : List Instr
deriving DecidableEq, Repr

/-- The state a cold reset leaves (R169): every block at its cold-reset value, the identity store and the pins untouched,
TESTING with `check` as the self-check under way. `free` is the model's counter of free values, which no reset turns back (log 12). -/
def State.cold (pins : Pins) (store : Store) (check : Option Bool) (free : Nat) (pending : List Instr) : State :=
  { pins, part := .testing check, role := .rack, ownAddr := 0x020000000000, store, burn := none, time := 0,
    channels := coldChannels, staging := Staging.cold, active := coldBank, shadow := coldBank, hits := Vector.replicate 256 0, bankGen := 0,
    move := none, ports := Vector.replicate 4 Port.cold, lanes := coldLanes pins.los, prot := Protection.cold, agent := Agent.cold,
    lastRecord := none, free, pending }

/-- The machine right after reset: a part fresh from the maker, powered on with RESET_N and ZEROIZE_N high, no LOS pin asserted and the
SELFTEST_LONG strap low (log 10), so that the short self-check is under way (R169, R170). -/
def State.reset : State :=
  State.cold { resetHigh := true, zeroizeHigh := true, los := 0, selftestLong := false } (Vector.replicate 32 0) (some false) 0 []

end Sys2Proof.Machine
end

