-- ==== Sys2Proof/Machine/Flags.lean ====
section
/-! DEFINITION. Codes and bits: the STATUS pins (R169), notice kinds (R177), outcomes and states as the wire carries them (12.3, 12.4). -/

namespace Sys2Proof.Machine

/-- The ports and lanes are BLOCKED: TESTING and FAILED (R169). -/
def blocked (s : State) : Bool :=
  match s.part with
  | .running => false
  | .unprovisioned => false
  | .testing _ => true
  | .failed _ => true

/-- The STATUS code (R169). -/
def statusCode (s : State) : Nat :=
  match s.part with
  | .testing _ => 0
  | .running => if s.pins.zeroizeHigh then 1 else 6
  | .failed code => code
  | .unprovisioned => if s.pins.zeroizeHigh then 7 else 6

/-- FAULT_N: low only in FAILED (R169). -/
def faultN (s : State) : Bool :=
  match s.part with
  | .failed _ => false
  | _ => true

/-- The LOCK flag of the identity store (R172). -/
def lockBit (s : State) : Bool := s.store[4].getLsbD 0
/-- The ROLE flag (R172). -/
def storeRole (s : State) : Role := if s.store[4].getLsbD 1 then .campus else .rack
/-- The NO-BYPASS flag (R172). -/
def noBypass (s : State) : Bool := s.store[4].getLsbD 2
/-- The LONG-CHECK flag (R172). -/
def longCheck (s : State) : Bool := s.store[4].getLsbD 3

/-- The own address the store gives: 02, the low byte of word 1, words 2 and 3 (R172). -/
def storeAddr (s : State) : Addr :=
  BitVec.ofNat 48 (0x02 * 2 ^ 40 + (s.store[1].toNat % 256) * 2 ^ 32 + s.store[2].toNat * 2 ^ 16 + s.store[3].toNat)

/-- Store words `first` to `first + n - 1` as a number, first word most significant. -/
def storeNat (st : Store) (first n : Nat) : Nat := ((st.toList.drop first).take n).foldl (fun a w => a * 65536 + w.toNat) 0

/-- The management key: words 5 to 20 (R172). -/
def storeKey (s : State) : Key := BitVec.ofNat 256 (storeNat s.store 5 16)
/-- The management salt: words 21 and 22 (R172). -/
def storeSalt (s : State) : Salt := BitVec.ofNat 32 (storeNat s.store 21 2)

/-- The store sums to 0 modulo 65,536 (R170, R172). -/
def storeSumsToZero (st : Store) : Bool := (st.toList.foldl (fun a w => a + w.toNat) 0) % 65536 == 0

/-- The bit of a kind (R177). -/
def kindBit : Kind → KindSet
  | .lane => 1
  | .protect => 2
  | .loop => 4
  | .test => 8
  | .queue => 16
  | .switched => 32
  | .soft => 64
  | .halted => 128
  | .first => 256
  | .faded => 512
  | .missed => 1024
  | .authfail => 2048

/-- Outcome codes (12.3). -/
def outcomeCode : DirOutcome → Nat
  | .done => 0
  | .format => 1
  | .range => 2
  | .locked => 3
  | .state => 4
  | .busy => 5
  | .skipped => 6

def outStateCode : OutState → Nat
  | .empty => 0
  | .loaded => 1
  | .live => 2
  | .exhausted => 3
  | .draining => 4

def inStateCode : InState → Nat
  | .empty => 0
  | .pending => 1
  | .current => 2
  | .fading => 3

def laneStateCode : LaneState → Nat
  | .up => 0
  | .los => 1
  | .dark => 2
  | .looped => 3

def laneStateOf : Nat → Option LaneState
  | 0 => some .up
  | 1 => some .los
  | 2 => some .dark
  | 3 => some .looped
  | _ => none

def loopModeCode : LoopMode → Nat
  | .none => 0
  | .line => 1
  | .cipher => 2

def loopFieldCode : LoopField → Nat
  | .none => 0
  | .request => 1
  | .release => 2

def loopFieldOf : Nat → Option LoopField
  | 0 => some .none
  | 1 => some .request
  | 2 => some .release
  | _ => none

def roleCode : Role → Nat
  | .rack => 0
  | .campus => 1

def letterCode : Letter → Nat
  | .a => 0
  | .b => 1

def partCode : PartState → Nat
  | .testing _ => 0
  | .running => 1
  | .failed _ => 2
  | .unprovisioned => 3

def directionCode : Direction → Nat
  | .out => 0
  | .inb => 1
  | .both => 2

/-- A port or lane number, or 0xFF for none (R177). -/
def portOrNone : Option PortId → Byte
  | none => 0xFF
  | some n => BitVec.ofNat 8 n.val

/-- Eight bytes of a time, or all ones for none (R177). -/
def timeOrOnes : Option Time → List Byte
  | none => List.replicate 8 0xFF
  | some t => beBytes 8 t.toNat

/-- Eight bytes of a schedule or removed time, or zero for none (R177). -/
def timeOrZero : Option Time → List Byte
  | none => List.replicate 8 0
  | some t => beBytes 8 t.toNat

/-- The number of a place: ports 0 to 3, lanes 4 to 8 (R163). -/
def placeCode : Place → Nat
  | .port n => n.val
  | .lane k => k.val + 4

/-- The index of a channel counter in the order of R20. -/
def chanCtrIdx : ChanCtr → Fin 13
  | .protectedFrames => 0 | .protectedOctets => 1 | .droppedNoKey => 2 | .droppedHalted => 3 | .droppedZeroized => 4
  | .verifiedFrames => 5 | .verifiedOctets => 6 | .authFail => 7 | .replay => 8 | .late => 9 | .unknownEpoch => 10
  | .stale => 11 | .returnMismatch => 12

/-- The index of an inner port counter in the order of R61 and R119. -/
def portCtrIdx : PortCtr → Fin 22
  | .framesReceived => 0 | .octetsReceived => 1 | .badFcs => 2 | .undersize => 3 | .oversize => 4 | .pauseReceived => 5
  | .controlDropped => 6 | .malformed => 7 | .toAgent => 8 | .noMatch => 9 | .discarded => 10 | .bypassBlocked => 11
  | .protectRefused => 12 | .protectDropped => 13 | .protectedSent => 14 | .bypassed => 15
  | .overflow => 16 | .pauseSent => 17 | .releaseSent => 18 | .deliveryOverflow => 19 | .sentFrames => 20 | .sentOctets => 21

/-- The index of a lane counter in the order of R90, R141 and R154. -/
def laneCtrIdx : LaneCtr → Fin 34
  | .framesReceived => 0 | .octetsReceived => 1 | .badFcs => 2 | .undersize => 3 | .oversize => 4 | .malformed => 5
  | .controlDropped => 6 | .foreign => 7 | .mgmtTransit => 8 | .unselected => 9 | .ownDropped => 10 | .ownVerified => 11
  | .ownFailed => 12 | .delivered => 13 | .noMatch => 14 | .discarded => 15 | .bypassBlocked => 16
  | .framesSent => 17 | .octetsSent => 18 | .bufferFramesSent => 19 | .beaconsSent => 20 | .lostOnSwitch => 21
  | .beaconWithheld => 22 | .beaconSkipped => 23 | .testSkipped => 24 | .peerBeacons => 25 | .ownBeacons => 26
  | .beaconsIgnored => 27 | .continuityLosses => 28
  | .loopOverrun => 29 | .testGenerated => 30 | .testWithheld => 31 | .testGood => 32 | .testBad => 33

/-- The index of an agent counter in the order of R163. -/
def agentCtrIdx : AgentCtr → Fin 9
  | .requestsTaken => 0 | .requestOverflow => 1 | .requestMalformed => 2 | .clearRefused => 3 | .notRequest => 4
  | .repliesSent => 5 | .replyLost => 6 | .noticesSent => 7 | .noticeLost => 8

end Sys2Proof.Machine
end

