-- ==== Sys2Proof/Machine/Ops.lean ====
section
/-! DEFINITION. The named operations on the state: reaching one record, counting (R20), timers (log 8), reporting notice kinds (R165). -/

namespace Sys2Proof.Machine

/-! ### Reaching one record -/

/-- A function on every element of a vector. -/
def mapVec {α β : Type} {n : Nat} (f : α → β) (v : Vector α n) : Vector β n := ⟨⟨v.toList.map f⟩, by simp⟩

def State.chan (s : State) (c : Chan) : Channel := s.channels[c]
def State.port (s : State) (n : PortId) : Port := s.ports[n]
def State.lane (s : State) (k : LaneId) : Lane := s.lanes[k]

def State.updChan (s : State) (c : Chan) (f : Channel → Channel) : State := { s with channels := s.channels.set c (f s.channels[c]) }
def State.updPort (s : State) (n : PortId) (f : Port → Port) : State := { s with ports := s.ports.set n (f s.ports[n]) }
def State.updLane (s : State) (k : LaneId) (f : Lane → Lane) : State := { s with lanes := s.lanes.set k (f s.lanes[k]) }
def State.updAgent (s : State) (f : Agent → Agent) : State := { s with agent := f s.agent }
def State.updProt (s : State) (f : Protection → Protection) : State := { s with prot := f s.prot }

/-- The outbound slot of a letter. -/
def Channel.outSlot (ch : Channel) : Letter → OutSlot
  | .a => ch.outA
  | .b => ch.outB

/-- The inbound slot of a letter. -/
def Channel.inSlot (ch : Channel) : Letter → InSlot
  | .a => ch.inA
  | .b => ch.inB

def Channel.setOut (ch : Channel) (x : Letter) (o : OutSlot) : Channel :=
  match x with
  | .a => { ch with outA := o }
  | .b => { ch with outB := o }

def Channel.setIn (ch : Channel) (x : Letter) (i : InSlot) : Channel :=
  match x with
  | .a => { ch with inA := i }
  | .b => { ch with inB := i }

/-- The working lane paired with a port. -/
def laneOfPort (n : PortId) : LaneId := ⟨n.val, by omega⟩

/-- The port paired with a working lane; none for L4. -/
def portOfLane (k : LaneId) : Option PortId := if h : k.val < 4 then some ⟨k.val, h⟩ else none

/-- The standby lane L4. -/
def standby : LaneId := 4

/-! ### Counters (R20) -/

/-- A saturating increment of a 48-bit counter. -/
def addCounter (c : Counter) (k : Nat) : Counter := if c.toNat + k ≤ 2 ^ 48 - 1 then BitVec.ofNat 48 (c.toNat + k) else BitVec.allOnes 48

def bumpAt {n : Nat} (v : Vector Counter n) (i : Fin n) (k : Nat) : Vector Counter n := v.set i (addCounter v[i] k)

def Channel.count (ch : Channel) (c : ChanCtr) (k : Nat := 1) : Channel := { ch with counters := bumpAt ch.counters (chanCtrIdx c) k }
def Port.count (p : Port) (c : PortCtr) (k : Nat := 1) : Port := { p with counters := bumpAt p.counters (portCtrIdx c) k }
def Lane.count (l : Lane) (c : LaneCtr) (k : Nat := 1) : Lane := { l with counters := bumpAt l.counters (laneCtrIdx c) k }
def Agent.count (a : Agent) (c : AgentCtr) (k : Nat := 1) : Agent := { a with counters := bumpAt a.counters (agentCtrIdx c) k }

def State.countChan (s : State) (c : Chan) (ctr : ChanCtr) (k : Nat := 1) : State := s.updChan c (·.count ctr k)
def State.countPort (s : State) (n : PortId) (ctr : PortCtr) (k : Nat := 1) : State := s.updPort n (·.count ctr k)
def State.countLane (s : State) (k : LaneId) (ctr : LaneCtr) (d : Nat := 1) : State := s.updLane k (·.count ctr d)
def State.countAgent (s : State) (ctr : AgentCtr) : State := s.updAgent (·.count ctr)

/-- The value of a counter. -/
def Channel.ctr (ch : Channel) (c : ChanCtr) : Counter := ch.counters[chanCtrIdx c]
def Port.ctr (p : Port) (c : PortCtr) : Counter := p.counters[portCtrIdx c]
def Lane.ctr (l : Lane) (c : LaneCtr) : Counter := l.counters[laneCtrIdx c]
def Agent.ctr (a : Agent) (c : AgentCtr) : Counter := a.counters[agentCtrIdx c]

/-! ### Timers (log 8) -/

/-- A timer that starts now. -/
def startTimer (s : State) (len : Nat) : Timer := { start := s.time, len }

/-- A timer is running and its length has passed. -/
def timerDue (now : Time) (t : Option Timer) : Bool :=
  match t with
  | none => false
  | some t => t.len ≤ (now - t.start).toNat

/-- The microseconds left of a timer. -/
def timerLeft (now : Time) (t : Timer) : Nat := t.len - (now - t.start).toNat

/-- A quotient rounded up. -/
def ceilDiv (a b : Nat) : Nat := (a + b - 1) / b

/-- Whole microseconds of a number of pause quanta, 5.12 ns each (00_scope, R113, R118; log 8). -/
def quantaMicros (q : Nat) : Nat := q * 512 / 100000

/-- The sum of the lengths of a list of frames. -/
def totalBytes (l : List Frame) : Nat := (l.map List.length).sum

/-! ### Notice kinds (R165) -/

/-- Kinds added to a channel's set: a channel already in the FIFO keeps its place, another joins at the tail. -/
def addKinds (c : Chan) (ks : KindSet) : List (Chan × KindSet) → List (Chan × KindSet)
  | [] => [(c, ks)]
  | (d, k) :: rest => if d = c then (d, k ||| ks) :: rest else (d, k) :: addKinds c ks rest

/-- Channel kinds reported for a channel. -/
def reportChan (c : Chan) (ks : KindSet) (s : State) : State :=
  if ks = 0 then s else s.updAgent fun a => { a with fifo := addKinds c ks a.fifo }

/-- A device kind reported. -/
def reportDevice (k : Kind) (s : State) : State := s.updAgent fun a => { a with devices := a.devices ||| kindBit k }

/-! ### Cold reset and the self-check's beginning (R169, R170) -/

/-- A cold reset with the pins as they stand: everything but the identity store, the pins and the waiting commands takes its cold-reset value,
and the self-check begins when RESET_N is high, long by the strap or the LONG-CHECK flag (R169, R170). -/
def coldReset (s : State) : State :=
  State.cold s.pins s.store (if s.pins.resetHigh then some (s.pins.selftestLong || longCheck s) else none) s.free s.pending

end Sys2Proof.Machine
end

