-- ==== Sys2Proof/Machine/Channels.lean ====
section
/-! DEFINITION. The channel table's shared operations: slots, sequence assignment, the switch, the replay window, slot selection, promotion,
the load of channel 0 and zeroize (chapters 2, 4, 5, 6). -/

namespace Sys2Proof.Machine

/-! ### Slots that become EMPTY (R24) -/

/-- An outbound slot becomes EMPTY: key and salt zero, epoch, KCV, timestamp and next sequence absent, load and in-flight counts kept. Its load is over,
and with it the record of its soft-limit event (R64). -/
def emptyOut (o : OutSlot) : OutSlot :=
  { o with state := .empty, key := 0, salt := 0, epoch := none, next := .absent, kcv := none, switchTime := none, softHit := false }

/-- An inbound slot becomes EMPTY: the same, with top 0, no marks and no grace timer. -/
def emptyIn (i : InSlot) : InSlot :=
  { i with state := .empty, key := 0, salt := 0, epoch := none, kcv := none, top := 0, marks := [], firstVerify := none, graceTimer := none }

/-! ### The outbound switch (R93, R94) -/

/-- The slot a switch would take out of service: the one that is LIVE or EXHAUSTED (R93). -/
def oldSlot (ch : Channel) : Option Letter :=
  if ch.outA.state = .live ∨ ch.outA.state = .exhausted then some .a
  else if ch.outB.state = .live ∨ ch.outB.state = .exhausted then some .b
  else none

/-- The slot a switch would bring into service (R93). -/
def switchTarget (ch : Channel) : Letter :=
  match oldSlot ch with
  | some x => x.other
  | none => if ch.outA.state = .loaded then .a else .b

/-- A requested switch is made (R93). -/
def switchMade (ch : Channel) : Bool :=
  (ch.outSlot (switchTarget ch)).state = .loaded &&
    match oldSlot ch with
    | some x => (ch.outSlot (switchTarget ch)).epoch != (ch.outSlot x).epoch
    | none => true

/-- The slot that leaves service: DRAINING with a frame in flight, else EMPTY (R94). -/
def retire (o : OutSlot) : OutSlot := if 0 < o.inFlight then { o with state := .draining } else emptyOut o

/-- A switch that is made (R94). -/
def makeSwitch (now : Time) (ch : Channel) : Channel :=
  let t := switchTarget ch
  let ch' := match oldSlot ch with
    | some x => ch.setOut x (retire (ch.outSlot x))
    | none => ch
  ch'.setOut t { ch.outSlot t with state := .live, switchTime := some now }

/-- A switch requested: the record, and the kinds it reports when it is made (R93 to R95). -/
def requestSwitch (now : Time) (ch : Channel) : Channel × KindSet :=
  if switchMade ch then (makeSwitch now ch, kindBit .switched) else (ch, 0)

/-! ### Sequence assignment (R62 to R64) -/

/-- The answer to a request for a sequence. -/
inductive Answer where
  | refused (ctr : ChanCtr)
  | assigned (x : Letter) (slot : OutSlot) (n : Seq)
deriving DecidableEq, Repr

/-- The answer of a record as it stands (R62). -/
def sequenceAnswer (ch : Channel) : Answer :=
  if !ch.isOpen then .refused .droppedNoKey
  else match oldSlot ch with
    | none => .refused .droppedNoKey
    | some x =>
      match (ch.outSlot x).state, (ch.outSlot x).next with
      | .live, .seq n => .assigned x (ch.outSlot x) n
      | _, _ => .refused .droppedHalted

/-- The slot after an assignment of `n` (R63). -/
def takeSequence (o : OutSlot) (n : Seq) : OutSlot :=
  if n.toNat = Config.lastSeq then { o with inFlight := o.inFlight + 1, next := .spent, state := .exhausted }
  else { o with inFlight := o.inFlight + 1, next := .seq (n + 1) }

/-- An assignment of `n` from a slot is the soft-limit event of its load: it gives the soft limit, and the load has had no such event (R64, R95). -/
def softEvent (softLimit : Nat) (o : OutSlot) (n : Seq) : Bool := n.toNat = softLimit && !o.softHit

/-- The record after an assignment of `n` from slot `x`, with the kinds it reports: HALTED on exhaustion, and the soft-limit event (R63, R64). -/
def assignFrom (now : Time) (ch : Channel) (x : Letter) (n : Seq) : Channel × KindSet :=
  let k1 := if n.toNat = Config.lastSeq then kindBit .halted else 0
  if softEvent ch.config.softLimit (ch.outSlot x) n then
    let ch1 := ch.setOut x { takeSequence (ch.outSlot x) n with softHit := true }
    let r := if ch.config.auto then requestSwitch now ch1 else (ch1, 0)
    (r.1, k1 ||| kindBit .soft ||| r.2)
  else (ch.setOut x (takeSequence (ch.outSlot x) n), k1)

/-- A request for a sequence on channel `c` for a frame of `origin`: the work record and the epoch, or the counter that names the refusal
(R62, R63, R12). A refusal changes nothing here; what it counts is its requester's (R62, R71). -/
def assignSequence (c : Chan) (origin : Origin) (s : State) : (ChanCtr ⊕ (Work × Byte)) × State :=
  match sequenceAnswer (s.chan c) with
  | .refused ctr => (.inl ctr, s)
  | .assigned x slot n =>
    let r := assignFrom s.time (s.chan c) x n
    (.inr ({ origin, op := .protect, chan := c, letter := x, load := slot.load, seq := n, key := slot.key, salt := slot.salt },
        slot.epoch.getD 0),
      reportChan c r.2 (s.updChan c fun _ => r.1))

/-- The completion of a protect operation judges its frame against the slot as it stands (R67). -/
def protectPasses (ch : Channel) (w : Work) : Bool := (ch.outSlot w.letter).state != .empty && (ch.outSlot w.letter).load == w.load

/-- The slot after one of its frames completed: the in-flight count decrements, and a DRAINING slot without frames becomes EMPTY (R23, R96). -/
def completeOut (o : OutSlot) : OutSlot :=
  let o' := { o with inFlight := o.inFlight - 1 }
  if o'.state = .draining ∧ o'.inFlight = 0 then emptyOut o' else o'

/-! ### The replay window (R80, R81) -/

/-- Verdicts of the window test. -/
inductive WindowVerdict where
  | fresh
  | replay
  | late
deriving DecidableEq, Repr

/-- The window test of sequence `q` against top and mark set under size `w` (R80). -/
def windowTest (w top : Nat) (marks : List Nat) (q : Nat) : WindowVerdict :=
  if w = 0 then .fresh
  else if top < q then .fresh
  else if q + w ≤ top then .late
  else if marks.contains q then .replay
  else .fresh

/-- A sequence joins an ascending mark set. -/
def insertMark (q : Nat) : List Nat → List Nat
  | [] => [q]
  | m :: rest => if q < m then q :: m :: rest else if q = m then m :: rest else m :: insertMark q rest

/-- The window update with a sequence that passed the final check (R81): the new top and mark set. -/
def windowUpdate (w top : Nat) (marks : List Nat) (q : Nat) : Nat × List Nat :=
  if w = 0 then (max top q, [])
  else if top < q then (q, (if q - top ≥ w then [] else marks.filter (fun m => q < m + w)) ++ [q])
  else (top, insertMark q marks)

/-- The mark set after CHAN-SET wrote another window size `w` (R32). -/
def remark (w top : Nat) : List Nat :=
  if w = 0 then [] else let lo := max 1 (top + 1 - w); List.range' lo (top + 1 - lo)

/-! ### Slot selection (R79) -/

/-- The inbound slot that is not EMPTY and holds an epoch (R79 step 1). -/
def selectSlot (ch : Channel) (e : Byte) : Option Letter :=
  if ch.inA.state ≠ .empty ∧ ch.inA.epoch = some e then some .a
  else if ch.inB.state ≠ .empty ∧ ch.inB.epoch = some e then some .b
  else none

/-- The counter of a window verdict that drops a frame (R79, R82). -/
def windowCtr : WindowVerdict → Option ChanCtr
  | .fresh => none
  | .replay => some .replay
  | .late => some .late

/-! ### Promotion and grace (R102) -/

/-- The slot that a promotion of the other sends away: FADING with a grace timer, or EMPTY at once when grace is 0 (R102, R103). -/
def fade (now : Time) (grace : Nat) (i : InSlot) : InSlot × KindSet :=
  if grace = 0 then (emptyIn i, kindBit .faded)
  else ({ i with state := .fading, graceTimer := some { start := now, len := 1000 * grace } }, 0)

/-- The promotion of slot `x`, when it is PENDING, by the completion that was just recorded in its window (R84 step 4, R102). -/
def promote (now : Time) (ch : Channel) (x : Letter) : Channel × KindSet :=
  if (ch.inSlot x).state = .pending then
    let ch1 := ch.setIn x { ch.inSlot x with state := .current, firstVerify := some now }
    if (ch.inSlot x.other).state = .current then
      let r := fade now ch.config.grace (ch.inSlot x.other)
      (ch1.setIn x.other r.1, kindBit .first ||| r.2)
    else (ch1, kindBit .first)
  else (ch, 0)

/-! ### Commit, load and zeroize (R27, R28, R37, R171) -/

/-- An outbound slot a KEY-COMMIT writes (R27). -/
def commitOut (st : Staging) (kcv : Kcv) (o : OutSlot) : OutSlot :=
  { o with state := .loaded, key := st.key, salt := st.salt, epoch := some st.epoch, next := .seq 1, load := o.load + 1, kcv := some kcv,
           switchTime := none, softHit := false }

/-- An inbound slot a KEY-COMMIT writes (R28). -/
def commitIn (st : Staging) (kcv : Kcv) (i : InSlot) : InSlot :=
  { i with state := .pending, key := st.key, salt := st.salt, epoch := some st.epoch, load := i.load + 1, kcv := some kcv, top := 0, marks := [],
           firstVerify := none, graceTimer := none }

/-- The load of channel 0 from the identity store: outbound A LIVE, inbound A PENDING, epoch 0 (R171, R106). -/
def loadChannel0 (s : State) : State :=
  let st : Staging := { valid := true, key := storeKey s, salt := storeSalt s, epoch := 0 }
  let kcv := kcvOf st.key
  s.updChan 0 fun ch =>
    { ch with outA := { commitOut st kcv ch.outA with state := .live, switchTime := some s.time }, inA := commitIn st kcv ch.inA }

/-- Every slot of a record EMPTY (R24). -/
def emptySlots (ch : Channel) : Channel :=
  { ch with outA := emptyOut ch.outA, outB := emptyOut ch.outB, inA := emptyIn ch.inA, inB := emptyIn ch.inB }

/-- Zeroize of the channel table and the staging buffer (R37). -/
def zeroizeTable (s : State) : State :=
  { s with channels := mapVec (fun ch => { emptySlots ch with schedule := none }) s.channels, staging := Staging.cold }

/-- Channel 0 is loaded when LOCK is burned and ZEROIZE_N is high (R171, R174, R175, R176). -/
def loadIfLocked (s : State) : State := if lockBit s && s.pins.zeroizeHigh then loadChannel0 s else s

end Sys2Proof.Machine
end

