-- ==== Sys2Proof/Machine/Protect.lean ====
section
/-! DEFINITION. The protection controller's shared operations: bridging, request classes, the arbiter, steering and adoption (R130 to R137, R140). -/

namespace Sys2Proof.Machine

/-- The port whose outbound buffer L4 serves: the selection in the RACK role, the echo in the CAMPUS role (R130). -/
def bridged (s : State) : Option PortId :=
  match s.role with
  | .rack => s.prot.selection
  | .campus => s.prot.echo

/-- The port whose outbound buffer a lane serves (R109, R122). -/
def servedPort (s : State) (k : LaneId) : Option PortId :=
  match portOfLane k with
  | some n => if bridged s = some n then none else some n
  | none => bridged s

/-- Lanes held in LOS or DARK, as the far-fail set of a beacon (R125). -/
def laneFailed (s : State) (k : LaneId) : Bool := (s.lane k).state == .los || (s.lane k).state == .dark

def failedSet (s : State) : BitVec 5 :=
  BitVec.ofNat 5 ((if laneFailed s 0 then 1 else 0) + (if laneFailed s 1 then 2 else 0) + (if laneFailed s 2 then 4 else 0) +
    (if laneFailed s 3 then 8 else 0) + (if laneFailed s 4 then 16 else 0))

/-- A transmission of a frame taken from buffer `n` on lane `k` is cut and counted lost-on-switch; any other is left (R135). -/
def cutBuffer (k : LaneId) (n : PortId) (s : State) : State :=
  match (s.lane k).tx with
  | some { source := .buffer m _, .. } => if m = n then s.updLane k fun l => ({ l with tx := none }).count .lostOnSwitch else s
  | _ => s

/-- Bridging changes from port `a` to port `b`: the frames whose service moves are cut, and PROTECT is set (R135). -/
def moveBridging (a b : Option PortId) (s : State) : State :=
  let s1 := match a with
    | some n => cutBuffer standby n s
    | none => s
  let s2 := match b with
    | some n => cutBuffer (laneOfPort n) n s1
    | none => s1
  reportDevice .protect s2

/-- The standby lane is available (R131). -/
def standbyAvailable (s : State) : Bool :=
  (s.lane standby).state == .up && !s.prot.farFail.getLsbD 4 && (s.lane standby).loopMode == .none && !s.prot.lockout

/-- A working lane is FAIL by its state or by the peer's far-fail set (R132). -/
def workingFailed (s : State) (n : PortId) : Bool := laneFailed s (laneOfPort n) || s.prot.farFail.getLsbD n.val

/-- The class of a working lane judged afresh (R132), WAIT by the rules of R134: the selected lane that loses FAIL enters WAIT when the WTR
setting is above 0 and stays there while its timer runs. -/
def judgeClass (s : State) (n : PortId) : ReqClass :=
  if s.prot.force = some n then .force
  else if workingFailed s n then .fail
  else if s.prot.manual = some n then .manual
  else if s.prot.selection = some n then
    match s.prot.classes[n] with
    | .fail => if 0 < s.prot.wtrSetting then .wait else .none
    | .wait => .wait
    | _ => .none
  else .none

/-- The WTR timer after the classes are judged: it starts when the selected lane enters WAIT, runs on while it stays there, and is stopped
otherwise (R134). -/
def judgeWtr (s : State) (classes : Vector ReqClass 4) : Option Timer :=
  match s.prot.selection with
  | none => none
  | some n =>
    if classes[n] = .wait then
      if s.prot.classes[n] = .wait then s.prot.wtrTimer else some (startTimer s (s.prot.wtrSetting * 1000000))
    else none

/-- The lowest-numbered lane of a class. -/
def lowestOf (classes : Vector ReqClass 4) (c : ReqClass) : Option PortId :=
  if classes[0] = c then some 0 else if classes[1] = c then some 1 else if classes[2] = c then some 2
  else if classes[3] = c then some 3 else none

/-- The highest class present. -/
def highestClass (classes : Vector ReqClass 4) : ReqClass :=
  if (lowestOf classes .force).isSome then .force
  else if (lowestOf classes .fail).isSome then .fail
  else if (lowestOf classes .manual).isSome then .manual
  else if (lowestOf classes .wait).isSome then .wait
  else .none

/-- The arbiter's choice (R133). -/
def arbiter (available : Bool) (classes : Vector ReqClass 4) (sel : Option PortId) : Option PortId :=
  if !available then none
  else if highestClass classes = .none then none
  else match sel with
    | some n => if classes[n] = highestClass classes then some n else lowestOf classes (highestClass classes)
    | none => lowestOf classes (highestClass classes)

/-- The classes and availability judged afresh and the arbiter run, in the RACK role (R131 to R135). In the CAMPUS role nothing is arbitrated (R137). -/
def runArbiter (s : State) : State :=
  match s.role with
  | .campus => s
  | .rack =>
    let cls : Vector ReqClass 4 := #v[judgeClass s 0, judgeClass s 1, judgeClass s 2, judgeClass s 3]
    let timer := judgeWtr s cls
    let sel := arbiter (standbyAvailable s) cls s.prot.selection
    if sel = s.prot.selection then s.updProt fun p => { p with classes := cls, wtrTimer := timer }
    else
      let cls' := match s.prot.selection with
        | some n => if cls[n] = .wait then cls.set n .none else cls
        | none => cls
      moveBridging s.prot.selection sel (s.updProt fun p => { p with classes := cls', wtrTimer := none, selection := sel })

/-- A change of the steering sets PROTECT (R136). -/
def setSteering (p : Option PortId) (s : State) : State :=
  if s.prot.steering = p then s else reportDevice .protect (s.updProt fun q => { q with steering := p })

/-- An adoption at the CAMPUS end: echo, bridging and steering change together (R137). -/
def adopt (v : Option PortId) (s : State) : State :=
  moveBridging s.prot.echo v (s.updProt fun p => { p with echo := v, steering := v })

/-- The adoption run set to none with count 0 (R137). -/
def clearAdoption (s : State) : State := s.updProt fun p => { p with candidate := none, adoptCount := 0 }

/-- A bridged-lane value of a rack beacon on L4 judged by the adoption run (R137). -/
def judgeAdoption (v : Option PortId) (s : State) : State :=
  let s1 := if v = s.prot.candidate then s.updProt fun p => { p with adoptCount := min 3 (p.adoptCount + 1) }
    else s.updProt fun p => { p with candidate := v, adoptCount := 1 }
  if s1.prot.adoptCount = 3 ∧ s1.prot.candidate ≠ s1.prot.echo then adopt s1.prot.candidate s1 else s1

/-- L4's state has become LOS, DARK or LOOPED: the steering is none in the RACK role, none is adopted in the CAMPUS role (R136, R137). -/
def standbyLost (s : State) : State :=
  match s.role with
  | .rack => setSteering none s
  | .campus =>
    let s1 := clearAdoption s
    if s1.prot.echo = none then s1 else adopt none s1

/-- The lane state of lane `k` becomes `st`: LANE is set, L4's loss is acted on, and the arbiter runs (R127, R131, R132, R136, R137, R140).
A state that stays as it is is no change. -/
def setLaneState (k : LaneId) (st : LaneState) (s : State) : State :=
  if (s.lane k).state = st then s
  else
    let s1 := reportDevice .lane (s.updLane k fun l => { l with state := st })
    let s2 := if k = standby ∧ st ≠ .up then standbyLost s1 else s1
    runArbiter s2

/-- The loop mode of lane `k` becomes `m`; a change on L4 is an event of R131 (R143, R145). -/
def setLoopMode (k : LaneId) (m : LoopMode) (s : State) : State :=
  let s1 := s.updLane k fun l => { l with loopMode := m }
  if k = standby then runArbiter s1 else s1

end Sys2Proof.Machine
end

