-- ==== Sys2Proof/Machine/Manage.lean ====
section
/-! DEFINITION. The management agent's shared operations: the intake (R156, R157), the sender (R160, R161) and the notices (R165 to R167). -/

namespace Sys2Proof.Machine

/-! ### Messages (12.3, 12.5) -/

/-- An outcome record on the wire: code, outcome, data length, data (12.3). -/
def recordBytes (r : Record) : List Byte :=
  [r.code, BitVec.ofNat 8 (outcomeCode r.outcome)] ++ beBytes 2 r.data.length ++ r.data

/-- The message of a reply (R159, 12.3). -/
def replyMessage (id : BitVec 16) (status : Nat) (records : List Record) : List Byte :=
  beBytes 2 id.toNat ++ [BitVec.ofNat 8 records.length, BitVec.ofNat 8 status] ++ records.flatMap recordBytes

/-- The message of a notice (12.3, 12.5). -/
def noticeMessage (s : State) (devices : KindSet) (entries : List (Chan × KindSet)) (left : Nat) : List Byte :=
  [0, 0, 0, BitVec.ofNat 8 (statusCode s), BitVec.ofNat 8 devices.toNat] ++
  [s.lane 0, s.lane 1, s.lane 2, s.lane 3, s.lane 4].map (fun l => BitVec.ofNat 8 (laneStateCode l.state)) ++
  [portOrNone s.prot.selection, portOrNone s.prot.steering, portOrNone s.prot.echo] ++ beBytes 2 left ++ [BitVec.ofNat 8 entries.length] ++
  entries.flatMap (fun e => beBytes 2 e.1.val ++ beBytes 2 e.2.toNat)

/-! ### The sender takes a frame (R160, R161, R71) -/

/-- The header of a management frame the part sends: channel 0, origin bit 1 (R4, R5, R15). -/
def mgmtHeader (control epoch : Byte) (n : Seq) : Header := { control, epoch, chanField := chanFieldOf true 0, seq := n }

/-- A message taken into the sender's empty hand: as a CLEAR frame while the store is unlocked (epoch 0, sequence 1), else under channel 0's
LIVE slot; `none` when channel 0 refuses the sequence (R160, R71). -/
def takeMessage (place : Place) (kind : HandKind) (da : Addr) (msg : List Byte) (s : State) : Option State :=
  if lockBit s then
    match assignSequence 0 .agent s with
    | (.inl _, _) => none
    | (.inr (w, epoch), s1) =>
      some (s1.updAgent fun a =>
        { a with hand := some { place, kind, stage := .protecting w (mgmtHeader controlPlain epoch w.seq) da s1.ownAddr (padMessage 44 msg) } })
  else
    some (s.updAgent fun a =>
      { a with hand := some { place, kind, stage := .ready (clearFrame da s.ownAddr (mgmtHeader controlClear 0 1) (padMessage 28 msg)) none } })

/-- A reply is lost: it is counted, and a restart that waits for it begins the cold reset (R161, R169). -/
def loseReply (final : Bool) (s : State) : State :=
  let s1 := s.countAgent .replyLost
  if final && s1.agent.restart.isSome then coldReset s1 else s1

/-- A notice is lost: it is counted, and every kind it reported is set again; channels that rejoin the FIFO do so in the order of the notice's entries
(R167; log 36). -/
def loseNotice (devices : KindSet) (entries : List (Chan × KindSet)) (s : State) : State :=
  let s1 := (s.countAgent .noticeLost).updAgent fun a => { a with devices := a.devices ||| devices }
  entries.foldl (fun t e => reportChan e.1 e.2 t) s1

/-- The frame in hand is lost, and the hand is empty (R161). -/
def loseHand (kind : HandKind) (s : State) : State :=
  let s1 := s.updAgent fun a => { a with hand := none }
  match kind with
  | .reply final => loseReply final s1
  | .notice devices entries => loseNotice devices entries s1

/-- The sender's empty hand takes a reply that waits (R161). -/
def takeReply (s : State) : State :=
  match s.agent.hand, s.agent.reply with
  | none, some r =>
    let s1 := s.updAgent fun a => { a with reply := none }
    match takeMessage r.place (.reply r.final) r.sa r.msg s1 with
    | some s2 => s2
    | none => loseReply r.final s1
  | _, _ => s

/-! ### Notices (R166, R167) -/

/-- Entries taken from the FIFO in order from the head, at most `n`, masked kinds left behind: what is reported, and what stays (R167). -/
def takeEntries (masks : KindSet) : Nat → List (Chan × KindSet) → List (Chan × KindSet) × List (Chan × KindSet)
  | _, [] => ([], [])
  | 0, rest => ([], rest)
  | n + 1, (c, k) :: rest =>
    if k &&& ~~~masks = 0 then
      let r := takeEntries masks (n + 1) rest
      (r.1, (c, k) :: r.2)
    else
      let r := takeEntries masks n rest
      ((c, k &&& ~~~masks) :: r.1, if k &&& masks = 0 then r.2 else (c, k &&& masks) :: r.2)

/-- Channels of a FIFO with an unmasked kind pending. -/
def unmaskedLeft (masks : KindSet) (fifo : List (Chan × KindSet)) : Nat := (fifo.filter (fun e => e.2 &&& ~~~masks != 0)).length

/-- The conditions of R167 for a notice to be built. -/
def noticeDue (s : State) : Bool :=
  (s.agent.devices &&& ~~~s.agent.masks != 0 || unmaskedLeft s.agent.masks s.agent.fifo != 0) &&
  s.agent.holdoff.isNone && s.agent.dest.isSome && (!lockBit s || (s.chan 0).outA.state == .live || (s.chan 0).outB.state == .live) &&
  s.agent.hand.isNone && s.agent.reply.isNone

/-- A notice is built when its conditions hold: the kinds reported are cleared, the holdoff starts for 1 ms, and the notice goes to the sender
(R167). -/
def buildNotice (s : State) : State :=
  if noticeDue s then
    match s.agent.dest with
    | none => s
    | some (place, addr) =>
      let devices := s.agent.devices &&& ~~~s.agent.masks
      let r := takeEntries s.agent.masks Config.noticeEntries s.agent.fifo
      let s1 := s.updAgent fun a =>
        { a with devices := a.devices &&& a.masks, fifo := r.2, holdoff := some (startTimer s 1000) }
      match takeMessage place (.notice devices r.1) addr (noticeMessage s devices r.1 (unmaskedLeft s.agent.masks r.2)) s1 with
      | some s2 => s2
      | none => loseNotice devices r.1 s1
  else s

/-- What every event ends with at the sender: an empty hand takes a waiting reply first, and a notice whose conditions hold is built
(R161, R167; log 23). -/
def settle (s : State) : State := buildNotice (takeReply s)

/-! ### The intake (R156, R157) -/

/-- Directives read one after another from the bytes after a request's head: as many as counted, and the bytes that follow (R157). -/
def parseDirectives : Nat → List Byte → Option (List Directive × List Byte)
  | 0, l => some ([], l)
  | n + 1, l =>
    if l.length < 3 then none
    else
      let len := numAt l 1 2
      if l.length < 3 + len then none
      else (parseDirectives n (l.drop (3 + len))).map fun r => ({ code := l.getD 0 0, ops := slice l 3 len } :: r.1, r.2)

/-- A request message: its id and directives, or `none` when it is malformed (R157). One of fewer than 3 bytes holds no directive count and is malformed
too (log 39). -/
def parseRequest (msg : List Byte) : Option (BitVec 16 × List Directive) :=
  let count := (msg.getD 2 0).toNat
  if msg.length < 3 ∨ count < 1 ∨ 32 < count then none
  else match parseDirectives count (msg.drop 3) with
    | none => none
    | some (ds, rest) => if rest.all (· == 0) then some (BitVec.ofNat 16 (numAt msg 0 2), ds) else none

/-- A frame the intake takes sets the notice destination, and its request is queued, dropped as malformed or dropped for lack of room
(R156, R157). -/
def takeRequest (place : Place) (sa : Addr) (clear : Bool) (msg : List Byte) (s : State) : State :=
  let s1 := (s.countAgent .requestsTaken).updAgent fun a => { a with dest := some (place, sa) }
  match parseRequest msg with
  | none => s1.countAgent .requestMalformed
  | some (id, dirs) =>
    if s1.agent.queue.length < Config.requestPlaces then s1.updAgent fun a => { a with queue := a.queue ++ [{ id, place, sa, clear, dirs }] }
    else reportDevice .queue (s1.countAgent .requestOverflow)

/-- A CLEAR frame at the intake, in the event of its arrival: R86 hands it over at once, so it waits for no earlier frame of its lane, which R13 leaves
open (R86, R156; log 41). -/
def intakeClear (place : Place) (f : Frame) (s : State) : State :=
  if headerOrigin (headerOf f) then s.countAgent .notRequest
  else if lockBit s then s.countAgent .clearRefused
  else takeRequest place (frameSa f) true (clearPart f) s

end Sys2Proof.Machine
end

