-- ==== Sys2Proof/Machine/Operands.lean ====
section
/-! DEFINITION. Operands of directives: codes, fixed operands, field lists (12.4, R177), and the sizes of the data they return (R159, 12.4). -/

namespace Sys2Proof.Machine

/-! ### Directive codes (12.4) -/

def codeChanOpen : Byte := 0x10
def codeChanSet : Byte := 0x11
def codeChanClose : Byte := 0x12
def codeChanRead : Byte := 0x13
def codeKeyStage : Byte := 0x18
def codeKeyCommit : Byte := 0x19
def codeKeyErase : Byte := 0x1A
def codeSwitchNow : Byte := 0x20
def codeSwitchAt : Byte := 0x21
def codeSwitchCancel : Byte := 0x22
def codeTimeRead : Byte := 0x23
def codeRuleWrite : Byte := 0x30
def codeRulePatch : Byte := 0x31
def codeRuleClear : Byte := 0x32
def codeRuleRead : Byte := 0x33
def codeRuleMove : Byte := 0x34
def codeTableCommit : Byte := 0x35
def codeTableRevert : Byte := 0x36
def codePortSet : Byte := 0x40
def codeLaneSet : Byte := 0x48
def codeLoopSet : Byte := 0x50
def codeTestSet : Byte := 0x51
def codeTestInject : Byte := 0x52
def codeCountSweep : Byte := 0x60
def codePortCounts : Byte := 0x61
def codeStatusRead : Byte := 0x62
def codeNoticeMask : Byte := 0x63
def codeIdRead : Byte := 0x70
def codeIdBurn : Byte := 0x71
def codeZeroize : Byte := 0x72
def codeRestart : Byte := 0x73

/-! ### What a directive answers (R158) -/

/-- A directive ends with an outcome and its data, or begins an operation that ends at its own completion. -/
inductive DirResult where
  | ended (o : DirOutcome) (data : List Byte) (s : State)
  | begun (s : State)

/-- The directive ends DONE. -/
def dirDone (data : List Byte) (s : State) : DirResult := .ended .done data s

/-- The directive is refused at a check, without data (R158). -/
def dirRefused (o : DirOutcome) (s : State) : DirResult := .ended o [] s

/-! ### Fixed operands -/

/-- A channel number, when it is one of 0..1023 (R17). -/
def chanOf (n : Nat) : Option Chan := if h : n < 1024 then some ⟨n, h⟩ else none

def portIdOf (n : Nat) : Option PortId := if h : n < 4 then some ⟨n, h⟩ else none
def laneIdOf (n : Nat) : Option LaneId := if h : n < 5 then some ⟨n, h⟩ else none

/-- A slot letter's code (12.4.1). -/
def letterOf : Nat → Option Letter
  | 0 => some .a
  | 1 => some .b
  | _ => none

/-- The targets of KEY-COMMIT (R26, 12.4.1): whether the outbound and the inbound side are written. -/
def targetOf : Nat → Option (Bool × Bool)
  | 0 => some (true, false)
  | 1 => some (false, true)
  | 2 => some (true, true)
  | _ => none

/-- A flag operand of 0 or 1. -/
def flagOf : Nat → Option Bool
  | 0 => some false
  | 1 => some true
  | _ => none

/-! ### Field lists (12.4.2, R177) -/

/-- A field of a list: its number and its value's bytes. -/
abbrev FieldList := List (Nat × List Byte)

/-- A field list read by a table of field numbers and widths; `none` when a number does not belong to the directive or a value runs past the end.
`fuel` is at least the number of bytes. -/
def readFields (widths : List (Nat × Nat)) : Nat → List Byte → Option FieldList
  | _, [] => some []
  | 0, _ => none
  | fuel + 1, n :: rest =>
    match widths.lookup n.toNat with
    | none => none
    | some w => if rest.length < w then none else (readFields widths fuel (rest.drop w)).map ((n.toNat, rest.take w) :: ·)

/-- No field number appears twice. -/
def noRepeats (l : FieldList) : Bool := (l.map Prod.fst).Nodup

/-- The field list that follows the fixed operands, or `none` when the directive is refused FORMAT (R177). -/
def fieldList (widths : List (Nat × Nat)) (l : List Byte) : Option FieldList :=
  match readFields widths l.length l with
  | none => none
  | some fs => if noRepeats fs then some fs else none

/-- The bytes of a field, if it is given. -/
def fieldBytes (fs : FieldList) (i : Nat) : Option (List Byte) := fs.lookup i

/-- The value of a field, if it is given. -/
def fieldNat (fs : FieldList) (i : Nat) : Option Nat := (fs.lookup i).map beNat

/-- A field is given. -/
def given (fs : FieldList) (i : Nat) : Bool := (fs.lookup i).isSome

/-- A field that is a flag is 0 or 1 where it is given. -/
def flagInRange (fs : FieldList) (i : Nat) : Bool :=
  match fieldNat fs i with
  | some v => v ≤ 1
  | none => true

/-- A field is at most a bound where it is given. -/
def fieldAtMost (fs : FieldList) (i bound : Nat) : Bool :=
  match fieldNat fs i with
  | some v => v ≤ bound
  | none => true

/-- A flag field's value, or the value that stands. -/
def flagField (fs : FieldList) (i : Nat) (now : Bool) : Bool :=
  match fieldNat fs i with
  | some v => v != 0
  | none => now

/-- CHAN-OPEN and CHAN-SET. -/
def configFields : List (Nat × Nat) := [(1, 2), (2, 6), (3, 1), (4, 2), (5, 1)]
/-- RULE-WRITE and RULE-PATCH. -/
def entryFields : List (Nat × Nat) := [(1, 1), (2, 1), (3, 1), (4, 1), (5, 4), (6, 3), (7, 1), (8, 2)]
/-- PORT-SET. -/
def portFields : List (Nat × Nat) := [(1, 4), (2, 4), (3, 1)]
/-- LANE-SET. -/
def laneFields : List (Nat × Nat) := [(1, 2), (2, 2), (3, 1), (4, 1), (5, 1)]
/-- LOOP-SET. -/
def loopFields : List (Nat × Nat) := [(1, 1), (2, 1), (3, 1), (4, 1)]
/-- TEST-SET. -/
def testFields : List (Nat × Nat) := [(1, 4), (2, 2)]

/-! ### Sizes of data (R159, R162, R163, 12.4) -/

/-- Bytes PORT-COUNTS returns for a place (12.4). -/
def placeSize (p : Nat) : Nat := if p < 4 then 143 else if p < 9 then 208 else 56

/-- Bytes of `n` places from `p` on, place 0 following place 9 (R163). -/
def placesSize : Nat → Nat → Nat
  | _, 0 => 0
  | p, n + 1 => placeSize p + placesSize ((p + 1) % 10) n

/-- The size of the data a directive returns if it ends DONE, by the table of 12.4. A directive whose operands let it not end DONE counts the size of its
code all the same, RULE-READ 17 for any bank but ACTIVE; a COUNT-SWEEP or PORT-COUNTS with a number or place out of range, and a code that names no
directive, counts 0 (R159; log 18). -/
def dataSize (d : Directive) : Nat :=
  match d.code.toNat with
  | 0x10 => 12
  | 0x11 => 12
  | 0x13 => 219
  | 0x19 => 3
  | 0x20 => 10
  | 0x21 => 9
  | 0x22 => 8
  | 0x23 => 8
  | 0x30 => 16
  | 0x31 => 16
  | 0x33 => if numAt d.ops 0 1 = 0 then 23 else 17
  | 0x35 => 2
  | 0x40 => 10
  | 0x48 => 8
  | 0x50 => 14
  | 0x51 => 8
  | 0x60 => if 1 ≤ numAt d.ops 2 1 ∧ numAt d.ops 2 1 ≤ 16 then 2 + 80 * numAt d.ops 2 1 else 0
  | 0x61 => if numAt d.ops 0 1 ≤ 9 ∧ 1 ≤ numAt d.ops 1 1 ∧ numAt d.ops 1 1 ≤ 10 then 1 + placesSize (numAt d.ops 0 1) (numAt d.ops 1 1) else 0
  | 0x62 => 209
  | 0x63 => 2
  | 0x70 => 64
  | 0x71 => 2
  | _ => 0

end Sys2Proof.Machine
end

