-- ==== Sys2Proof/Machine/DirChannels.lean ====
section
/-! DEFINITION. The directives of channels, keys and rollover: CHAN-OPEN to CHAN-READ, KEY-STAGE to KEY-ERASE, SWITCH-NOW to TIME-READ
(R25 to R34, R92, R98 to R101). -/

namespace Sys2Proof.Machine

/-! ### CHAN-OPEN, CHAN-SET, CHAN-CLOSE, CHAN-READ -/

/-- The config with the fields given, clamped as R19 states. -/
def configWith (fs : FieldList) (base : ChanConfig) : ChanConfig :=
  { window := match fieldNat fs 1 with
      | some v => min v Config.windowMax
      | none => base.window
    softLimit := match fieldNat fs 2 with
      | some v => max v 1
      | none => base.softLimit
    auto := flagField fs 3 base.auto
    grace := (fieldNat fs 4).getD base.grace
    returnCheck := flagField fs 5 base.returnCheck }

/-- The five config values as a directive reports them (R30, R31). -/
def configBytes (c : ChanConfig) : List Byte :=
  beBytes 2 c.window ++ beBytes 6 c.softLimit ++ [flagByte c.auto] ++ beBytes 2 c.grace ++ [flagByte c.returnCheck]

/-- CHAN-OPEN (R30). -/
def dirChanOpen (ops : List Byte) (s : State) : DirResult :=
  if ops.length < 2 then dirRefused .format s
  else match fieldList configFields (ops.drop 2) with
    | none => dirRefused .format s
    | some fs =>
      match chanOf (numAt ops 0 2) with
      | none => dirRefused .range s
      | some c =>
        if c.val < 2 ∨ flagInRange fs 3 = false ∨ flagInRange fs 5 = false then dirRefused .range s
        else if (s.chan c).isOpen then dirRefused .state s
        else
          let cfg := configWith fs ChanConfig.cold
          dirDone (configBytes cfg) (s.updChan c fun ch => { ch with isOpen := true, config := cfg, counters := Vector.replicate 13 0 })

/-- An inbound slot after a change of W: re-marked when it is not EMPTY (R32). -/
def remarkSlot (w : Nat) (i : InSlot) : InSlot := if i.state = .empty then i else { i with marks := remark w i.top }

/-- CHAN-SET (R31, R32). -/
def dirChanSet (ops : List Byte) (s : State) : DirResult :=
  if ops.length < 2 then dirRefused .format s
  else match fieldList configFields (ops.drop 2) with
    | none => dirRefused .format s
    | some fs =>
      match chanOf (numAt ops 0 2) with
      | none => dirRefused .range s
      | some c =>
        if flagInRange fs 3 = false ∨ flagInRange fs 5 = false then dirRefused .range s
        else if (s.chan c).isOpen = false then dirRefused .state s
        else
          let cfg := configWith fs (s.chan c).config
          dirDone (configBytes cfg) (s.updChan c fun ch =>
            if cfg.window = ch.config.window then { ch with config := cfg }
            else { ch with config := cfg, inA := remarkSlot cfg.window ch.inA, inB := remarkSlot cfg.window ch.inB })

/-- An outbound slot at CHAN-CLOSE: EMPTY unless DRAINING (R33). -/
def closeOut (o : OutSlot) : OutSlot := if o.state = .draining then o else emptyOut o

/-- CHAN-CLOSE (R33). -/
def dirChanClose (ops : List Byte) (s : State) : DirResult :=
  if ops.length ≠ 2 then dirRefused .format s
  else match chanOf (numAt ops 0 2) with
    | none => dirRefused .range s
    | some c =>
      if c.val < 2 then dirRefused .range s
      else if (s.chan c).isOpen then
        dirDone [] (s.updChan c fun ch =>
          { ch with isOpen := false, schedule := none, outA := closeOut ch.outA, outB := closeOut ch.outB, inA := emptyIn ch.inA, inB := emptyIn ch.inB })
      else dirDone [] s

/-- An outbound slot in CHAN-READ (12.4.3). -/
def outSlotBytes (o : OutSlot) : List Byte :=
  [BitVec.ofNat 8 (outStateCode o.state), o.epoch.getD 0] ++ beBytes 3 (o.kcv.getD 0).toNat ++
  beBytes 6 (match o.next with
    | .seq n => n.toNat
    | _ => 0) ++ timeOrOnes o.switchTime ++ beBytes 4 o.load.toNat ++ beBytes 4 o.inFlight

/-- Grace remaining in whole milliseconds, rounded up; 0 unless FADING (R34). -/
def graceLeft (now : Time) (i : InSlot) : Nat :=
  match i.state, i.graceTimer with
  | .fading, some t => ceilDiv (timerLeft now t) 1000
  | _, _ => 0

/-- An inbound slot in CHAN-READ (12.4.3). -/
def inSlotBytes (now : Time) (i : InSlot) : List Byte :=
  [BitVec.ofNat 8 (inStateCode i.state), i.epoch.getD 0] ++ beBytes 3 (i.kcv.getD 0).toNat ++ beBytes 6 i.top ++ beBytes 4 i.marks.length ++
  timeOrOnes i.firstVerify ++ beBytes 2 (graceLeft now i) ++ beBytes 4 i.load.toNat ++ beBytes 4 i.inFlight

/-- Counters at six bytes each, in table order. -/
def counterBytes {n : Nat} (v : Vector Counter n) : List Byte := v.toList.flatMap (fun c => beBytes 6 c.toNat)

/-- The data of CHAN-READ (R34, 12.4.3). -/
def chanReadBytes (now : Time) (ch : Channel) : List Byte :=
  [flagByte ch.isOpen] ++ configBytes ch.config ++ timeOrZero ch.schedule ++ outSlotBytes ch.outA ++ outSlotBytes ch.outB ++
  inSlotBytes now ch.inA ++ inSlotBytes now ch.inB ++ counterBytes ch.counters

/-- CHAN-READ (R34). -/
def dirChanRead (ops : List Byte) (s : State) : DirResult :=
  if ops.length ≠ 2 then dirRefused .format s
  else match chanOf (numAt ops 0 2) with
    | none => dirRefused .range s
    | some c => dirDone (chanReadBytes s.time (s.chan c)) s

/-! ### KEY-STAGE, KEY-COMMIT, KEY-ERASE -/

/-- KEY-STAGE (R25): key 32 bytes, salt 4, epoch 1. -/
def dirKeyStage (ops : List Byte) (s : State) : DirResult :=
  if ops.length ≠ 37 then dirRefused .format s
  else dirDone [] { s with staging :=
    { valid := true, key := BitVec.ofNat 256 (numAt ops 0 32), salt := BitVec.ofNat 32 (numAt ops 32 4), epoch := BitVec.ofNat 8 (numAt ops 36 1) } }

/-- The STATE conditions of KEY-COMMIT, checks 1 to 7 (R26); `out` and `inb` say which sides the target names. -/
def commitStateRefused (s : State) (c : Chan) (out inb : Bool) (x : Letter) : Bool :=
  let ch := s.chan c
  let o := ch.outSlot x
  let o' := ch.outSlot x.other
  let i := ch.inSlot x
  let i' := ch.inSlot x.other
  !s.pins.zeroizeHigh || !s.staging.valid || !ch.isOpen ||
  (out && (o.state == .live || o.state == .exhausted)) ||
  (out && (o'.state == .live || o'.state == .exhausted) && o'.epoch == some s.staging.epoch) ||
  (inb && i.state == .current) ||
  (inb && i'.state != .empty && i'.epoch == some s.staging.epoch)

/-- The outbound side of a commit: the slot LOADED, and the switch at once when AUTO is on and the other slot is EXHAUSTED (R27). -/
def commitOutSide (now : Time) (st : Staging) (kcv : Kcv) (x : Letter) (ch : Channel) : Channel × KindSet :=
  let ch1 := ch.setOut x (commitOut st kcv (ch.outSlot x))
  if ch.config.auto ∧ (ch.outSlot x.other).state = .exhausted then requestSwitch now ch1 else (ch1, 0)

/-- The inbound side of a commit (R28). -/
def commitInSide (st : Staging) (kcv : Kcv) (x : Letter) (ch : Channel) : Channel := ch.setIn x (commitIn st kcv (ch.inSlot x))

/-- A KEY-COMMIT whose checks all pass: both sides written, the staging buffer emptied (R25 to R28). -/
def commitKey (c : Chan) (out inb : Bool) (x : Letter) (s : State) : State :=
  let kcv := kcvOf s.staging.key
  let ch1 := if inb then commitInSide s.staging kcv x (s.chan c) else s.chan c
  let r := if out then commitOutSide s.time s.staging kcv x ch1 else (ch1, 0)
  reportChan c r.2 { s.updChan c (fun _ => r.1) with staging := Staging.cold }

/-- KEY-COMMIT (R26). -/
def dirKeyCommit (ops : List Byte) (s : State) : DirResult :=
  if ops.length ≠ 4 then dirRefused .format s
  else match chanOf (numAt ops 0 2), targetOf (numAt ops 2 1), letterOf (numAt ops 3 1) with
    | some c, some (out, inb), some x =>
      if commitStateRefused s c out inb x then dirRefused .state s
      else if out && ((s.chan c).outSlot x).state == .draining then dirRefused .busy s
      else dirDone (beBytes 3 (kcvOf s.staging.key).toNat) (commitKey c out inb x s)
    | _, _, _ => dirRefused .range s

/-- KEY-ERASE of an outbound slot (R29). -/
def eraseOut (c : Chan) (x : Letter) (s : State) : DirResult :=
  match ((s.chan c).outSlot x).state with
  | .empty => dirDone [] s
  | .loaded => dirDone [] (s.updChan c fun ch => ch.setOut x (emptyOut (ch.outSlot x)))
  | .live => dirRefused .state s
  | .exhausted => dirRefused .state s
  | .draining => dirRefused .busy s

/-- KEY-ERASE of an inbound slot (R29). -/
def eraseIn (c : Chan) (x : Letter) (s : State) : DirResult :=
  let erased := dirDone [] (s.updChan c fun ch => ch.setIn x (emptyIn (ch.inSlot x)))
  match ((s.chan c).inSlot x).state with
  | .empty => dirDone [] s
  | .pending => erased
  | .fading => erased
  | .current => if ((s.chan c).inSlot x.other).state = .fading then dirRefused .state s else erased

/-- KEY-ERASE (R29). -/
def dirKeyErase (ops : List Byte) (s : State) : DirResult :=
  if ops.length ≠ 4 then dirRefused .format s
  else match chanOf (numAt ops 0 2), flagOf (numAt ops 2 1), letterOf (numAt ops 3 1) with
    | some c, some inbound, some x => if inbound then eraseIn c x s else eraseOut c x s
    | _, _, _ => dirRefused .range s

/-! ### SWITCH-NOW, SWITCH-AT, SWITCH-CANCEL, TIME-READ -/

/-- SWITCH-NOW (R98). -/
def dirSwitchNow (ops : List Byte) (s : State) : DirResult :=
  if ops.length ≠ 2 then dirRefused .format s
  else match chanOf (numAt ops 0 2) with
    | none => dirRefused .range s
    | some c =>
      if (s.chan c).isOpen = false ∨ switchMade (s.chan c) = false then dirRefused .state s
      else
        let t := switchTarget (s.chan c)
        dirDone ([BitVec.ofNat 8 (letterCode t), ((s.chan c).outSlot t).epoch.getD 0] ++ beBytes 8 s.time.toNat)
          (reportChan c (kindBit .switched) (s.updChan c (makeSwitch s.time)))

/-- A switch requested by the schedule's cause: made, or MISSED (R94, R95). -/
def scheduledSwitch (c : Chan) (s : State) : State :=
  if switchMade (s.chan c) then reportChan c (kindBit .switched) (s.updChan c (makeSwitch s.time))
  else reportChan c (kindBit .missed) s

/-- SWITCH-AT (R99). -/
def dirSwitchAt (ops : List Byte) (s : State) : DirResult :=
  if ops.length ≠ 10 then dirRefused .format s
  else match chanOf (numAt ops 0 2) with
    | none => dirRefused .range s
    | some c =>
      if (s.chan c).isOpen = false then dirRefused .state s
      else
        let t : Time := BitVec.ofNat 64 (numAt ops 2 8)
        if s.time < t then dirDone (beBytes 8 t.toNat ++ [0]) (s.updChan c fun ch => { ch with schedule := some t })
        else
          let s1 := s.updChan c fun ch => { ch with schedule := none }
          dirDone (beBytes 8 s.time.toNat ++ [flagByte (switchMade (s1.chan c))]) (scheduledSwitch c s1)

/-- SWITCH-CANCEL (R101). -/
def dirSwitchCancel (ops : List Byte) (s : State) : DirResult :=
  if ops.length ≠ 2 then dirRefused .format s
  else match chanOf (numAt ops 0 2) with
    | none => dirRefused .range s
    | some c => dirDone (timeOrZero (s.chan c).schedule) (s.updChan c fun ch => { ch with schedule := none })

/-- TIME-READ (R92). -/
def dirTimeRead (ops : List Byte) (s : State) : DirResult :=
  if ops.length ≠ 0 then dirRefused .format s else dirDone (beBytes 8 s.time.toNat) s

end Sys2Proof.Machine
end

