-- ==== Sys2Proof/Machine/Link.lean ====
section
/-! DEFINITION. The lane unit's shared operations: beacons (R124 to R126, R178), the lane monitor (R127 to R129), the loop control (R145, R148),
the control queue (R123), and the test pattern and checker (R150, R152, R153). -/

namespace Sys2Proof.Machine

/-! ### The lane monitor (R127, R128) -/

/-- The continuity timer restarts for 3.5 beacon intervals of 0.1 ms (R128). -/
def restartContinuity (k : LaneId) (s : State) : State :=
  s.updLane k fun l => { l with continuity := some (startTimer s (350 * s.prot.interval)) }

/-- A beacon timer for the interval as it stands (R124). -/
def beaconTimerFor (s : State) : Timer := startTimer s (100 * s.prot.interval)

/-- A verified beacon at the lane monitor (R127, R128). -/
def monitorBeacon (k : LaneId) (own : Bool) (s : State) : State :=
  let s1 := restartContinuity k s
  if own then setLaneState k .looped (s1.updLane k fun l => { l with peerRun := 0 })
  else
    let s2 := s1.updLane k fun l => { l with peerRun := min 3 (l.peerRun + 1) }
    if (s2.lane k).peerRun = 3 then setLaneState k .up s2 else s2

/-! ### Loopbacks (R145, R146) -/

/-- LINE loopback begins (R145). -/
def beginLine (k : LaneId) (s : State) : State := reportDevice .loop (setLoopMode k .line s)

/-- LINE loopback ends: the return queue is discarded and counted as overrun (R145). -/
def endLine (k : LaneId) (s : State) : State :=
  let s1 := s.updLane k fun l => { l.count .loopOverrun l.returnQueue.length with returnQueue := [] }
  reportDevice .loop (setLoopMode k .none s1)

/-- CIPHER loopback begins: the monitor is frozen (R129, R146). -/
def beginCipher (k : LaneId) (s : State) : State :=
  setLoopMode k .cipher (s.updLane k fun l => { l with continuity := none, peerRun := 0, loopRun := none })

/-- CIPHER loopback ends: the continuity timer starts afresh unless the lane is in LOS (R129, R146). -/
def endCipher (k : LaneId) (s : State) : State :=
  let s1 := if (s.lane k).state = .los then s else restartContinuity k s
  setLoopMode k .none s1

/-- The loop run after a peer-role beacon's code (R148). -/
def nextLoopRun (now : Time) (run : Option (LoopField × Time)) (f : LoopField) : Option (LoopField × Time) :=
  match run with
  | some (g, t) => if g = f then some (g, t) else some (f, now)
  | none => some (f, now)

/-- A loop run is complete at an arrival (R148). -/
def runComplete (now : Time) (persistence : Nat) (run : Option (LoopField × Time)) : Bool :=
  match run with
  | some (_, t) => persistence * 1000000 ≤ (now - t).toNat
  | none => false

/-- The loop control takes the loop field of a verified beacon (R148). -/
def judgeLoop (k : LaneId) (own : Bool) (f : LoopField) (s : State) : State :=
  let l := s.lane k
  if l.loopMode = .cipher ∨ l.loopField = .request ∨ l.autoAccept = false ∨ own = true ∨ f = .none then
    s.updLane k fun l => { l with loopRun := none }
  else
    let run := nextLoopRun s.time l.loopRun f
    let s1 := s.updLane k fun l => { l with loopRun := run }
    if runComplete s.time l.persistence run then
      match f, l.loopMode with
      | .request, .none => beginLine k s1
      | .release, .line => endLine k s1
      | _, _ => s1
    else s1

/-! ### Beacons (R124 to R126, 12.2, R178) -/

/-- The sixteen bytes of a beacon of lane `k`, with values as they stand (R125, 12.2). -/
def beaconBytes (k : LaneId) (s : State) : List Byte :=
  [BitVec.ofNat 8 (roleCode s.role), BitVec.ofNat 8 k.val, BitVec.ofNat 8 (laneStateCode (s.lane k).state), BitVec.ofNat 8 (failedSet s).toNat,
   portOrNone (if s.role = .rack then s.prot.selection else none), portOrNone (if s.role = .campus then s.prot.echo else none),
   BitVec.ofNat 8 (loopFieldCode (s.lane k).loopField), 0] ++ beBytes 8 s.time.toNat

/-- What a receiver takes from a beacon (R125, R126). -/
structure BeaconContent where
  sender : Role
  lane : Nat
  condition : LaneState
  farFail : BitVec 5
  bridgedLane : Option PortId
  echo : Option PortId
  loop : LoopField
  time : Time
deriving DecidableEq, Repr

/-- 0..3, or 0xFF for none; anything else is undefined (R178). -/
def portOfByte (b : Byte) : Option (Option PortId) :=
  if b = 0xFF then some none else if h : b.toNat < 4 then some (some ⟨b.toNat, h⟩) else none

/-- A beacon's content, or `none` when it holds an undefined encoding or its sender role differs from its origin bit (R178). A payload of
fewer than 16 bytes is undefined too (log 20). -/
def parseBeacon (payload : List Byte) (origin : Bool) : Option BeaconContent :=
  let b := fun i => payload.getD i 0
  if payload.length < 16 ∨ (b 0).toNat ≠ (if origin then 1 else 0) ∨ 4 < (b 1).toNat ∨ (b 3).toNat ≥ 32 then none
  else
    match laneStateOf (b 2).toNat, portOfByte (b 4), portOfByte (b 5), loopFieldOf (b 6).toNat with
    | some condition, some bridgedLane, some echo, some loop =>
      some { sender := if origin then .campus else .rack, lane := (b 1).toNat, condition, farFail := (b 3).setWidth 5, bridgedLane, echo, loop, time := BitVec.ofNat 64 (numAt payload 8 8) }
    | _, _, _, _ => none

/-- What the lane unit keeps of a beacon it takes: a peer-role beacon is counted and leaves the peer report, an own-role one is counted (R126). -/
def noteBeacon (k : LaneId) (own : Bool) (c : BeaconContent) (s : State) : State :=
  if own then s.countLane k .ownBeacons
  else (s.updLane k fun l => { l with peerReport := some (c.condition, c.time) }).countLane k .peerBeacons

/-- A peer-role beacon at the protection controller (R126 step 3, R131, R136, R137). The echo is read from a CAMPUS beacon alone and the bridged lane
from a RACK beacon alone (R125), so a beacon that a LOCK burn overtook on its way, from a part of the new own role, moves neither (log 35). -/
def controllerBeacon (k : LaneId) (c : BeaconContent) (s : State) : State :=
  let s1 := if s.prot.farFail = c.farFail then s else runArbiter (s.updProt fun p => { p with farFail := c.farFail })
  if k = standby ∧ (s1.lane standby).state = .up then
    match s1.role, c.sender with
    | .rack, .campus => setSteering c.echo s1
    | .campus, .rack => judgeAdoption c.bridgedLane s1
    | _, _ => s1
  else s1

/-- An own-role beacon on L4 breaks the CAMPUS adoption run (R137). -/
def ownBeacon (k : LaneId) (s : State) : State := if k = standby ∧ s.role = .campus then clearAdoption s else s

/-- A verified beacon at the lane unit of its lane of arrival. One with an undefined encoding, on a lane in LOS or for another lane is ignored; any other
is taken by the lane monitor, the loop control and the protection controller in this order (R126, R178). In CIPHER loopback the monitor and the
controller take none, and the loop control ends its run (R129, R146, R148; log 19). -/
def receiveBeacon (k : LaneId) (payload : List Byte) (origin own : Bool) (s : State) : State :=
  match parseBeacon payload origin with
  | none => s.countLane k .beaconsIgnored
  | some c =>
    if (s.lane k).state = .los ∨ c.lane ≠ k.val then s.countLane k .beaconsIgnored
    else if (s.lane k).loopMode = .cipher then noteBeacon k own c (judgeLoop k own c.loop s)
    else
      let s1 := noteBeacon k own c (judgeLoop k own c.loop (monitorBeacon k own s))
      if own then ownBeacon k s1 else controllerBeacon k c s1

/-! ### The control queue (R123) -/

/-- A queue holds a beacon. -/
def holdsBeacon (q : List CtlFrame) : Bool := q.any (·.kind == .beacon)

/-- A new beacon replaces the queued one in its place. -/
def replaceBeacon (f : CtlFrame) (q : List CtlFrame) : List CtlFrame := q.map fun g => if g.kind = .beacon then f else g

/-- An offer to a control queue: the queue after it, or `none` when it has no place for the frame (R123). -/
def offerControl (f : CtlFrame) (q : List CtlFrame) : Option (List CtlFrame) :=
  if f.kind = .beacon ∧ holdsBeacon q = true then some (replaceBeacon f q)
  else if q.length < Config.controlPlaces then some (q ++ [f])
  else none

/-- The first frame of a kind leaves a control queue. -/
def takeFirst (p : CtlFrame → Bool) : List CtlFrame → Option (CtlFrame × List CtlFrame)
  | [] => none
  | f :: rest => if p f then some (f, rest) else (takeFirst p rest).map fun r => (r.1, f :: r.2)

/-- The transmitter's pick from the control queue by strict priority: beacon, reply or notice, test frame (R122). -/
def takeControl (q : List CtlFrame) : Option (CtlFrame × List CtlFrame) :=
  match takeFirst (fun f => f.kind == .beacon) q with
  | some r => some r
  | none =>
    match takeFirst (fun f => f.kind == .notice || f.kind == .reply true || f.kind == .reply false) q with
    | some r => some r
    | none => takeFirst (fun f => f.kind == .test) q

/-! ### Test pattern and checker (R150, R152, R153) -/

/-- The next pattern bit: the exclusive-or of the bits 23 and 18 places before; bit 0 of the register is the latest (R150). -/
def patternBit (r : BitVec 23) : Bool := r.getLsbD 22 != r.getLsbD 17

/-- The register after one more bit. -/
def pushBit (r : BitVec 23) (b : Bool) : BitVec 23 := (r <<< 1) ||| (if b then 1 else 0)

/-- The next `n` pattern bits appended to an accumulator, first bit most significant, and the register after them. -/
def patternBits : Nat → BitVec 23 → Nat → Nat × BitVec 23
  | 0, r, acc => (acc, r)
  | n + 1, r, acc => patternBits n (pushBit r (patternBit r)) (2 * acc + (if patternBit r then 1 else 0))

/-- The next `n` bytes of the pattern stream and the register after them (R150, 12.2). -/
def patternBytes : Nat → BitVec 23 → List Byte × BitVec 23
  | 0, r => ([], r)
  | n + 1, r =>
    let b := patternBits 8 r 0
    let rest := patternBytes n b.2
    (BitVec.ofNat 8 b.1 :: rest.1, rest.2)

/-- Bit 64 of a payload inverted: the first bit of its ninth byte (R150 step 3). -/
def invertBit64 (p : List Byte) : List Byte := p.set 8 (p.getD 8 0 ^^^ 0x80)

/-- The bits of a byte, most significant first. -/
def byteBits (b : Byte) : List Bool :=
  [b.getLsbD 7, b.getLsbD 6, b.getLsbD 5, b.getLsbD 4, b.getLsbD 3, b.getLsbD 2, b.getLsbD 1, b.getLsbD 0]

/-- The pattern relation on a bit string after `seen` bits held in a register (R152). -/
def relationHolds : List Bool → Nat → BitVec 23 → Bool
  | [], _, _ => true
  | b :: rest, seen, r => (seen < 23 || b == patternBit r) && relationHolds rest (seen + 1) (pushBit r b)

/-- A verified test payload is good (R152). -/
def payloadGood (p : List Byte) : Bool := relationHolds (p.flatMap byteBits) 0 0

/-- The history with one more judgement, the oldest leaving when it would hold 17 (R153). -/
def pushJudged (h : List Bool) (good : Bool) : List Bool := if h.length < 16 then h ++ [good] else h.drop (h.length - 15) ++ [good]

/-- Bad judgements in the history. -/
def badCount (h : List Bool) : Nat := (h.filter (· == false)).length

/-- A frame judged at the test checker of lane `k` (R152, R153). -/
def judgeTest (k : LaneId) (good : Bool) (s : State) : State :=
  let s1 := s.countLane k (if good then .testGood else .testBad)
  let l := s1.lane k
  if l.locked then
    let h := pushJudged l.judged good
    if 4 ≤ badCount h then
      reportDevice .test (s1.updLane k fun l => { l with locked := false, goodRun := 0, judged := [] })
    else s1.updLane k fun l => { l with judged := h }
  else if good then
    if l.goodRun < 7 then s1.updLane k fun l => { l with goodRun := l.goodRun + 1 }
    else reportDevice .test (s1.updLane k fun l => { l with locked := true, goodRun := 8, judged := [] })
  else s1.updLane k fun l => { l with goodRun := 0 }

/-- The length of a test generator's rate timer, in whole microseconds (R149, R150; log 8). -/
def rateLen (rate : Nat) : Nat := 1000000 / rate

end Sys2Proof.Machine
end

