-- ==== Sys2Proof/Machine/Pause.lean ====
section
/-! DEFINITION. The outbound buffer and its pause record (R107 to R114). -/

namespace Sys2Proof.Machine

/-- The occupancy of an outbound buffer (R107). -/
def bufOccupancy (p : Port) : Nat := totalBytes (p.buffer.map (·.bytes))

/-- The occupancy of a delivery queue (R116). -/
def queueOccupancy (p : Port) : Nat := totalBytes (p.queue.map (·.bytes))

/-- The pause comes in force and an ON frame becomes pending (R111). -/
def beginPause (p : Port) : Port := { p with inForce := true, pendingPause := .on }

/-- The pause ends: an announced one is released by an OFF, another is withdrawn; the refresh timer stops (R111). -/
def endPause (p : Port) : Port :=
  if p.announced then { p with inForce := false, pendingPause := .off, refresh := none }
  else { p with inForce := false, pendingPause := .none, refresh := none }

/-- The pause record after an append (R111). -/
def judgeAppend (p : Port) : Port := if p.pauseEnable ∧ p.inForce = false ∧ p.xoff ≤ bufOccupancy p then beginPause p else p

/-- The pause record after a removal (R111). -/
def judgeRemoval (p : Port) : Port := if p.pauseEnable ∧ p.inForce = true ∧ bufOccupancy p ≤ p.xon then endPause p else p

/-- A frame requests entry to the outbound buffer: appended and judged, or no room (R108). -/
def enterBuffer (f : BufFrame) (p : Port) : Option Port :=
  if Config.bufferCapacity < bufOccupancy p + f.bytes.length then none else some (judgeAppend { p with buffer := p.buffer ++ [f] })

/-- The pause record judged afresh by PORT-SET (R114 step 4). -/
def judgePortSet (p : Port) : Port :=
  match p.pauseEnable, p.inForce with
  | true, false => if p.xoff ≤ bufOccupancy p then beginPause p else p
  | true, true => if bufOccupancy p ≤ p.xon then endPause p else p
  | false, true => endPause p
  | false, false => p

/-- The quanta of an ON frame (R112). -/
def pauseQuanta (p : Port) : Nat := max 1 (ceilDiv (bufOccupancy p - p.xon) 64)

end Sys2Proof.Machine
end

