-- ==== Sys2Proof/Machine/DirLines.lean ====
section
/-! DEFINITION. The directives of ports and lanes: PORT-SET, LANE-SET, LOOP-SET, TEST-SET, TEST-INJECT (R114, R138, R144, R149, R151). -/

namespace Sys2Proof.Machine

/-! ### PORT-SET (R114) -/

/-- A number clamped to a range. -/
def clamp (lo hi v : Nat) : Nat := max lo (min hi v)

/-- The buffer's settings and pause record after PORT-SET (R114). -/
def portWith (fs : FieldList) (p : Port) : Port :=
  let xoff := match fieldNat fs 1 with
    | some v => clamp Config.xoffMin Config.xoffMax v
    | none => p.xoff
  judgePortSet { p with xoff, xon := min ((fieldNat fs 2).getD p.xon) (xoff - 1), pauseEnable := flagField fs 3 p.pauseEnable }

/-- The data of PORT-SET: port, XOFF, XON, pause enable. -/
def portSetBytes (n : PortId) (p : Port) : List Byte :=
  [BitVec.ofNat 8 n.val] ++ beBytes 4 p.xoff ++ beBytes 4 p.xon ++ [flagByte p.pauseEnable]

/-- PORT-SET (R114). -/
def dirPortSet (ops : List Byte) (s : State) : DirResult :=
  if ops.length < 1 then dirRefused .format s
  else match fieldList portFields (ops.drop 1) with
    | none => dirRefused .format s
    | some fs =>
      match portIdOf (numAt ops 0 1) with
      | none => dirRefused .range s
      | some n =>
        if flagInRange fs 3 = false then dirRefused .range s
        else dirDone (portSetBytes n (portWith fs (s.port n))) (s.updPort n (portWith fs))

/-! ### LANE-SET (R138) -/

/-- FORCE and MANUAL carry a working lane or 0xFF for clear. -/
def laneOrClear (fs : FieldList) (i : Nat) : Bool :=
  match fieldNat fs i with
  | some v => v < 4 || v == 0xFF
  | none => true

/-- The value of FORCE or MANUAL after the directive. -/
def forceField (fs : FieldList) (i : Nat) (now : Option PortId) : Option PortId :=
  match fieldNat fs i with
  | some v => portIdOf v
  | none => now

/-- The protection settings after LANE-SET, before the arbiter runs (R138). -/
def laneSettings (fs : FieldList) (p : Protection) : Protection :=
  { p with
    interval := match fieldNat fs 1 with
      | some v => clamp 1 1000 v
      | none => p.interval
    wtrSetting := match fieldNat fs 2 with
      | some v => min v 3600
      | none => p.wtrSetting
    lockout := flagField fs 3 p.lockout
    force := forceField fs 4 p.force
    manual := forceField fs 5 p.manual }

/-- The data of LANE-SET: the five settings and the selection. -/
def laneSetBytes (p : Protection) : List Byte :=
  beBytes 2 p.interval ++ beBytes 2 p.wtrSetting ++ [flagByte p.lockout, portOrNone p.force, portOrNone p.manual, portOrNone p.selection]

/-- LANE-SET (R138). -/
def dirLaneSet (ops : List Byte) (s : State) : DirResult :=
  match fieldList laneFields ops with
  | none => dirRefused .format s
  | some fs =>
    if flagInRange fs 3 = false ∨ laneOrClear fs 4 = false ∨ laneOrClear fs 5 = false then dirRefused .range s
    else if s.role = .campus ∧ (given fs 3 = true ∨ given fs 4 = true ∨ given fs 5 = true) then dirRefused .state s
    else
      let s' := runArbiter (s.updProt (laneSettings fs))
      dirDone (laneSetBytes s'.prot) s'

/-! ### LOOP-SET (R144) -/

/-- The data of LOOP-SET: the lane and the loop items of R143 other than the return queue. -/
def loopSetBytes (k : LaneId) (l : Lane) : List Byte :=
  [BitVec.ofNat 8 k.val, BitVec.ofNat 8 (loopModeCode l.loopMode), BitVec.ofNat 8 (loopFieldCode l.loopField), flagByte l.autoAccept,
   BitVec.ofNat 8 l.persistence, BitVec.ofNat 8 (match l.loopRun with
     | some (f, _) => loopFieldCode f
     | none => 0)] ++ timeOrOnes (l.loopRun.map Prod.snd)

/-- The local mode of LOOP-SET: CIPHER begins or NONE ends the loopback of the lane (R144). -/
def localMode (fs : FieldList) (k : LaneId) (s : State) : State :=
  match fieldNat fs 1, (s.lane k).loopMode with
  | some 1, .none => beginCipher k s
  | some 0, .line => endLine k (s.updLane k fun l => { l with loopRun := none })
  | some 0, .cipher => endCipher k s
  | _, _ => s

/-- The remote code, auto-accept and persistence of LOOP-SET (R144). -/
def loopSettings (fs : FieldList) (l : Lane) : Lane :=
  { l with
    loopField := match fieldNat fs 2 with
      | some v => (loopFieldOf v).getD l.loopField
      | none => l.loopField
    autoAccept := flagField fs 3 l.autoAccept
    persistence := match fieldNat fs 4 with
      | some v => clamp 1 60 v
      | none => l.persistence
    loopRun := if fieldNat fs 2 = some 1 ∨ fieldNat fs 3 = some 0 then none else l.loopRun }

/-- LOOP-SET (R144). -/
def dirLoopSet (ops : List Byte) (s : State) : DirResult :=
  if ops.length < 1 then dirRefused .format s
  else match fieldList loopFields (ops.drop 1) with
    | none => dirRefused .format s
    | some fs =>
      match laneIdOf (numAt ops 0 1) with
      | none => dirRefused .range s
      | some k =>
        if fieldAtMost fs 1 1 = false ∨ fieldAtMost fs 2 2 = false ∨ flagInRange fs 3 = false then dirRefused .range s
        else if fieldNat fs 1 = some 1 ∧ ((s.lane k).loopMode = .line ∨ (k = standby ∧ (bridged s).isSome)) then dirRefused .state s
        else
          let s' := (localMode fs k s).updLane k (loopSettings fs)
          dirDone (loopSetBytes k (s'.lane k)) s'

/-! ### TEST-SET, TEST-INJECT (R149, R151) -/

/-- Rate and inner length as TEST-SET leaves them (R149). -/
def testRates (fs : FieldList) (l : Lane) : Lane :=
  { l with
    rate := match fieldNat fs 1 with
      | some v => clamp 1 100000 v
      | none => l.rate
    innerLen := match fieldNat fs 2 with
      | some v => clamp 64 1500 v
      | none => l.innerLen }

/-- The generator and checker after TEST-SET (R149, R153). -/
def testWith (s : State) (on : Bool) (fs : FieldList) (l : Lane) : Lane :=
  let l' := testRates fs l
  if on then
    { l' with genOn := true, pattern := BitVec.allOnes 23, inject := .none, rateTimer := some (startTimer s (rateLen l'.rate)),
              locked := false, goodRun := 0, judged := [] }
  else { l' with genOn := false, inject := .none, rateTimer := none }

/-- The data of TEST-SET: lane, state, rate, inner length. -/
def testSetBytes (k : LaneId) (l : Lane) : List Byte :=
  [BitVec.ofNat 8 k.val, flagByte l.genOn] ++ beBytes 4 l.rate ++ beBytes 2 l.innerLen

/-- TEST-SET (R149). -/
def dirTestSet (ops : List Byte) (s : State) : DirResult :=
  if ops.length < 2 then dirRefused .format s
  else match fieldList testFields (ops.drop 2) with
    | none => dirRefused .format s
    | some fs =>
      match laneIdOf (numAt ops 0 1), flagOf (numAt ops 1 1) with
      | some k, some on => dirDone (testSetBytes k (testWith s on fs (s.lane k))) (s.updLane k (testWith s on fs))
      | _, _ => dirRefused .range s

/-- Kinds of inject (12.4.1). -/
def injectOf : Nat → Option Inject
  | 0 => some .pattern
  | 1 => some .tag
  | _ => none

/-- TEST-INJECT (R151). -/
def dirTestInject (ops : List Byte) (s : State) : DirResult :=
  if ops.length ≠ 2 then dirRefused .format s
  else match laneIdOf (numAt ops 0 1), injectOf (numAt ops 1 1) with
    | some k, some kind =>
      if (s.lane k).genOn then dirDone [] (s.updLane k fun l => { l with inject := kind }) else dirRefused .state s
    | _, _ => dirRefused .range s

end Sys2Proof.Machine
end

