-- ==== Sys2Proof/Machine/DirAgent.lean ====
section
/-! DEFINITION. The directives of the agent and the identity unit: COUNT-SWEEP, PORT-COUNTS, STATUS-READ, NOTICE-MASK, ID-READ, ID-BURN, ZEROIZE,
RESTART (R162 to R164, R166, R169, R173, R174, R176). -/

namespace Sys2Proof.Machine

/-! ### COUNT-SWEEP (R162) -/

/-- The channel after another, channel 0 following 1023. -/
def nextChan (c : Chan) : Chan := Fin.ofNat 1024 (c.val + 1)

/-- One channel read: its number and its counters, set to 0 with `clear` in the same event. -/
def sweepChan (clear : Bool) (c : Chan) (s : State) : List Byte × State :=
  (beBytes 2 c.val ++ counterBytes (s.chan c).counters,
    if clear then s.updChan c fun ch => { ch with counters := Vector.replicate 13 0 } else s)

/-- `n` channels read upward from `c`. -/
def sweepChans (clear : Bool) : Nat → Chan → State → List Byte × State
  | 0, _, s => ([], s)
  | n + 1, c, s =>
    let r := sweepChan clear c s
    let rest := sweepChans clear n (nextChan c) r.2
    (r.1 ++ rest.1, rest.2)

/-- COUNT-SWEEP (R162). The next index follows the last channel (log 17). -/
def dirCountSweep (ops : List Byte) (s : State) : DirResult :=
  if ops.length ≠ 4 then dirRefused .format s
  else match chanOf (numAt ops 0 2), flagOf (numAt ops 3 1) with
    | some c, some clear =>
      let n := numAt ops 2 1
      if n < 1 ∨ 16 < n then dirRefused .range s
      else
        let r := sweepChans clear n c s
        dirDone (r.1 ++ beBytes 2 ((c.val + n) % 1024)) r.2
    | _, _ => dirRefused .range s

/-! ### PORT-COUNTS (R163) -/

/-- The data of an inner port: place, counters, buffer occupancy, pause in force, delivery occupancy, hold in force (R163, 12.4). -/
def portPlaceBytes (place : Nat) (p : Port) : List Byte :=
  [BitVec.ofNat 8 place] ++ counterBytes p.counters ++ beBytes 4 (bufOccupancy p) ++ [flagByte p.inForce] ++ beBytes 4 (queueOccupancy p) ++
  [flagByte p.hold.isSome]

/-- The data of a lane: place, counters, control queue depth, return queue occupancy. -/
def lanePlaceBytes (place : Nat) (l : Lane) : List Byte :=
  [BitVec.ofNat 8 place] ++ counterBytes l.counters ++ [BitVec.ofNat 8 l.control.length] ++ beBytes 2 (totalBytes l.returnQueue)

/-- The data of the agent: place, counters, request queue depth. -/
def agentPlaceBytes (a : Agent) : List Byte := [9] ++ counterBytes a.counters ++ [BitVec.ofNat 8 a.queue.length]

/-- One place read, its counters set to 0 with `clear` in the same event. -/
def readPlace (clear : Bool) (place : Nat) (s : State) : List Byte × State :=
  match portIdOf place with
  | some n => (portPlaceBytes place (s.port n), if clear then s.updPort n fun p => { p with counters := Vector.replicate 22 0 } else s)
  | none =>
    match laneIdOf (place - 4) with
    | some k => (lanePlaceBytes place (s.lane k), if clear then s.updLane k fun l => { l with counters := Vector.replicate 34 0 } else s)
    | none => (agentPlaceBytes s.agent, if clear then s.updAgent fun a => { a with counters := Vector.replicate 9 0 } else s)

/-- `n` places read from `place` on, place 0 following place 9. -/
def readPlaces (clear : Bool) : Nat → Nat → State → List Byte × State
  | 0, _, s => ([], s)
  | n + 1, place, s =>
    let r := readPlace clear place s
    let rest := readPlaces clear n ((place + 1) % 10) r.2
    (r.1 ++ rest.1, rest.2)

/-- PORT-COUNTS (R163). The next index follows the last place (log 17). -/
def dirPortCounts (ops : List Byte) (s : State) : DirResult :=
  if ops.length ≠ 3 then dirRefused .format s
  else match flagOf (numAt ops 2 1) with
    | some clear =>
      let start := numAt ops 0 1
      let n := numAt ops 1 1
      if 9 < start ∨ n < 1 ∨ 10 < n then dirRefused .range s
      else
        let r := readPlaces clear n start s
        dirDone (r.1 ++ [BitVec.ofNat 8 ((start + n) % 10)]) r.2
    | none => dirRefused .range s

/-! ### STATUS-READ (R164, 12.4.3) -/

/-- The 34 bytes of a lane in STATUS-READ (12.4.3). -/
def laneStatusBytes (l : Lane) : List Byte :=
  [BitVec.ofNat 8 (laneStateCode l.state), BitVec.ofNat 8 l.peerRun] ++
  [match l.peerReport with
    | some (c, _) => BitVec.ofNat 8 (laneStateCode c)
    | none => 0xFF] ++ timeOrOnes (l.peerReport.map Prod.snd) ++
  [BitVec.ofNat 8 (loopModeCode l.loopMode), BitVec.ofNat 8 (loopFieldCode l.loopField), flagByte l.autoAccept, BitVec.ofNat 8 l.persistence] ++
  [match l.loopRun with
    | some (f, _) => BitVec.ofNat 8 (loopFieldCode f)
    | none => 0] ++ timeOrOnes (l.loopRun.map Prod.snd) ++
  [flagByte l.genOn] ++ beBytes 4 l.rate ++ beBytes 2 l.innerLen ++
  [flagByte l.locked, BitVec.ofNat 8 l.goodRun, BitVec.ofNat 8 (badCount l.judged)]

/-- The WTR timer remaining in whole seconds rounded up, or 0xFFFF when stopped (12.4.3). -/
def wtrLeft (s : State) : Nat :=
  match s.prot.wtrTimer with
  | some t => ceilDiv (timerLeft s.time t) 1000000
  | none => 0xFFFF

/-- The 209 bytes of STATUS-READ (12.4.3). -/
def statusBytes (s : State) : List Byte :=
  [BitVec.ofNat 8 (partCode s.part), BitVec.ofNat 8 (statusCode s), BitVec.ofNat 8 (roleCode s.role), flagByte (lockBit s)] ++
  beBytes 8 s.time.toNat ++
  laneStatusBytes (s.lane 0) ++ laneStatusBytes (s.lane 1) ++ laneStatusBytes (s.lane 2) ++ laneStatusBytes (s.lane 3) ++
  laneStatusBytes (s.lane 4) ++
  [portOrNone s.prot.selection, portOrNone s.prot.steering, portOrNone s.prot.echo, portOrNone s.prot.force, portOrNone s.prot.manual,
   flagByte s.prot.lockout] ++ beBytes 2 s.prot.wtrSetting ++ beBytes 2 (wtrLeft s) ++
  [s.prot.farFail.setWidth 8, portOrNone s.prot.candidate, BitVec.ofNat 8 s.prot.adoptCount, BitVec.ofNat 8 s.agent.queue.length,
   BitVec.ofNat 8 s.agent.devices.toNat] ++ beBytes 2 s.agent.fifo.length ++ beBytes 2 s.agent.masks.toNat ++
  (match s.agent.dest with
    | some (p, a) => [BitVec.ofNat 8 (placeCode p)] ++ beBytes 6 a.toNat
    | none => [0xFF, 0, 0, 0, 0, 0, 0]) ++ [flagByte s.agent.holdoff.isSome]

/-- STATUS-READ (R164). -/
def dirStatusRead (ops : List Byte) (s : State) : DirResult :=
  if ops.length ≠ 0 then dirRefused .format s else dirDone (statusBytes s) s

/-! ### NOTICE-MASK (R166) -/

/-- NOTICE-MASK (R166). -/
def dirNoticeMask (ops : List Byte) (s : State) : DirResult :=
  if ops.length ≠ 2 then dirRefused .format s
  else if 4096 ≤ numAt ops 0 2 then dirRefused .range s
  else dirDone (beBytes 2 (numAt ops 0 2)) (s.updAgent fun a => { a with masks := BitVec.ofNat 12 (numAt ops 0 2) })

/-! ### The identity store (R173, R174) -/

/-- A word of the store as a reply carries it: the management key and salt, words 5 to 22, as zero (R14, R173, 12.6). -/
def idWordBytes (st : Store) (w : Fin 32) : List Byte := beBytes 2 (if 5 ≤ w.val ∧ w.val ≤ 22 then 0 else st[w].toNat)

/-- The 32 words in order (R173, 12.6). -/
def idReadBytes (st : Store) : List Byte := (List.finRange 32).flatMap (idWordBytes st)

/-- ID-READ (R173). -/
def dirIdRead (ops : List Byte) (s : State) : DirResult :=
  if ops.length ≠ 0 then dirRefused .format s else dirDone (idReadBytes s.store) s

/-- A word of the store. -/
def wordOf (n : Nat) : Option (Fin 32) := if h : n < 32 then some ⟨n, h⟩ else none

/-- A bit of a word that can be burned: not bits 4 to 15 of word 4 (R174). -/
def bitOf (w : Fin 32) (n : Nat) : Option (Fin 16) :=
  if w = 4 ∧ 4 ≤ n then none else if h : n < 16 then some ⟨n, h⟩ else none

/-- ID-BURN (R174): 100 µs, or nothing for a bit already at 1. The word is returned as ID-READ returns it (log 37). -/
def dirIdBurn (ops : List Byte) (s : State) : DirResult :=
  if ops.length ≠ 2 then dirRefused .format s
  else match wordOf (numAt ops 0 1) with
    | none => dirRefused .range s
    | some w =>
      match bitOf w (numAt ops 1 1) with
      | none => dirRefused .range s
      | some b =>
        if lockBit s then dirRefused .locked s
        else if s.store[w].getLsbD b.val then dirDone (idWordBytes s.store w) s
        else .begun { s with burn := some { word := w, bit := b, timer := startTimer s 100 } }

/-! ### ZEROIZE, RESTART (R176, R169) -/

/-- ZEROIZE (R176). -/
def dirZeroize (ops : List Byte) (s : State) : DirResult :=
  if ops.length ≠ 0 then dirRefused .format s else dirDone [] (loadIfLocked (zeroizeTable s))

/-- RESTART, the last directive of its request or not (R169): a restart is pending for at most 1 s. -/
def dirRestart (last : Bool) (ops : List Byte) (s : State) : DirResult :=
  if ops.length ≠ 0 ∨ last = false then dirRefused .format s
  else dirDone [] (s.updAgent fun a => { a with restart := some (startTimer s 1000000) })

end Sys2Proof.Machine
end

