-- ==== Sys2Proof/Machine/DirClassifier.lean ====
section
/-! DEFINITION. The directives of the classifier: RULE-WRITE to RULE-MOVE, TABLE-COMMIT and TABLE-REVERT (R50 to R56, 12.4.1). -/

namespace Sys2Proof.Machine

/-! ### Entry records (12.4.1) -/

def vlanBytes : VlanMatch → List Byte
  | .untagged => [0, 0, 0, 0, 0]
  | .any => [1, 0, 0, 0, 0]
  | .range lo hi => [2] ++ beBytes 2 lo.toNat ++ beBytes 2 hi.toNat

def actionBytes : Action → List Byte
  | .protect c => [0] ++ beBytes 2 c.val
  | .bypass => [1, 0, 0]
  | .discard => [2, 0, 0]

/-- The type match of an entry record; the type bytes of an absent match are a free value (log 12). -/
def typeBytes (open_ : BitVec 16) : Option (BitVec 16) → List Byte
  | none => [0] ++ beBytes 2 open_.toNat
  | some t => [1] ++ beBytes 2 t.toNat

/-- The 14 bytes of an entry record (12.4.1). -/
def entryBytes (open_ : BitVec 16) (e : Entry) : List Byte :=
  [flagByte e.valid, BitVec.ofNat 8 (directionCode e.direction), e.ports.setWidth 8] ++ vlanBytes e.vlan ++ typeBytes open_ e.etype ++
  actionBytes e.action

/-- An entry record was written: the next free value is another one (log 12). -/
def nextFree (s : State) : State := { s with free := s.free + 1 }

/-! ### RULE-WRITE and RULE-PATCH (R50, R51) -/

/-- Fields that depend on each other: bounds exactly with a VLAN match of RANGE, a channel exactly with an action of PROTECT (R50, R51). -/
def entryFormat (fs : FieldList) : Bool :=
  (given fs 5 == (fieldNat fs 4 == some 2)) && (given fs 8 == (fieldNat fs 7 == some 0))

/-- The range checks of the fields given (R50, R177). -/
def entryRange (fs : FieldList) : Bool :=
  fieldAtMost fs 1 1 && fieldAtMost fs 2 2 && fieldAtMost fs 3 15 && fieldAtMost fs 4 2 && fieldAtMost fs 7 2 &&
  (match fieldBytes fs 5 with
    | some b => numAt b 0 2 ≤ numAt b 2 2 && numAt b 2 2 ≤ 4095
    | none => true) &&
  (match fieldBytes fs 6 with
    | some b => numAt b 0 1 ≤ 1
    | none => true) &&
  (match fieldNat fs 8 with
    | some c => 2 ≤ c && c ≤ 1023
    | none => true)

def directionOf : Nat → Direction
  | 0 => .out
  | 1 => .inb
  | _ => .both

/-- The VLAN match that fields give, when one is given. -/
def vlanField (fs : FieldList) (now : VlanMatch) : VlanMatch :=
  match fieldNat fs 4 with
  | none => now
  | some 0 => .untagged
  | some 1 => .any
  | some _ =>
    match fieldBytes fs 5 with
    | some b => .range (BitVec.ofNat 12 (numAt b 0 2)) (BitVec.ofNat 12 (numAt b 2 2))
    | none => now

/-- The type match that fields give, when one is given. -/
def typeField (fs : FieldList) (now : Option (BitVec 16)) : Option (BitVec 16) :=
  match fieldBytes fs 6 with
  | none => now
  | some b => if numAt b 0 1 = 0 then none else some (BitVec.ofNat 16 (numAt b 1 2))

/-- The action that fields give, when one is given. -/
def actionField (fs : FieldList) (now : Action) : Action :=
  match fieldNat fs 7 with
  | none => now
  | some 0 =>
    match chanOf ((fieldNat fs 8).getD 0) with
    | some c => .protect c
    | none => now
  | some 1 => .bypass
  | some _ => .discard

/-- The entry with the fields given over a base (R50, R51). -/
def entryWith (fs : FieldList) (e : Entry) : Entry :=
  { valid := flagField fs 1 e.valid
    direction := match fieldNat fs 2 with
      | some d => directionOf d
      | none => e.direction
    ports := match fieldNat fs 3 with
      | some m => BitVec.ofNat 4 m
      | none => e.ports
    vlan := vlanField fs e.vlan
    etype := typeField fs e.etype
    action := actionField fs e.action }

/-- The write defaults of R39. -/
def Entry.writeDefault : Entry := { Entry.cleared with valid := true }

/-- An index of a rule bank. -/
def indexOf (n : Nat) : Option (Fin 256) := if h : n < 256 then some ⟨n, h⟩ else none

/-- RULE-WRITE and RULE-PATCH: the fields given over the base that the directive names (R50, R51). -/
def ruleEdit (base : Entry → Entry) (ops : List Byte) (s : State) : DirResult :=
  if ops.length < 2 then dirRefused .format s
  else match fieldList entryFields (ops.drop 2) with
    | none => dirRefused .format s
    | some fs =>
      if entryFormat fs = false then dirRefused .format s
      else match indexOf (numAt ops 0 2) with
        | none => dirRefused .range s
        | some i =>
          if entryRange fs = false then dirRefused .range s
          else
            let e := entryWith fs (base s.shadow[i])
            dirDone (beBytes 2 i.val ++ entryBytes (Config.absentType s.free) e) (nextFree { s with shadow := s.shadow.set i e })

/-- RULE-WRITE (R50). -/
def dirRuleWrite (ops : List Byte) (s : State) : DirResult := ruleEdit (fun _ => Entry.writeDefault) ops s

/-- RULE-PATCH (R51). -/
def dirRulePatch (ops : List Byte) (s : State) : DirResult := ruleEdit id ops s

/-! ### RULE-CLEAR, RULE-READ (R52, R53) -/

/-- A bank with `count` entries from `first` on in the cleared form. -/
def clearEntries (b : Bank) (first count : Nat) : Bank :=
  Vector.ofFn fun i : Fin 256 => if first ≤ i.val ∧ i.val < first + count then Entry.cleared else b[i]

/-- RULE-CLEAR (R52). -/
def dirRuleClear (ops : List Byte) (s : State) : DirResult :=
  if ops.length ≠ 4 then dirRefused .format s
  else
    let first := numAt ops 0 2
    let count := numAt ops 2 2
    if count = 0 ∨ 255 < first ∨ 256 < first + count then dirRefused .range s
    else dirDone [] { s with shadow := clearEntries s.shadow first count }

/-- RULE-READ (R53). -/
def dirRuleRead (ops : List Byte) (s : State) : DirResult :=
  if ops.length ≠ 3 then dirRefused .format s
  else match numAt ops 0 1, indexOf (numAt ops 1 2) with
    | 0, some i =>
      dirDone ([0] ++ beBytes 2 i.val ++ entryBytes (Config.absentType s.free) s.active[i] ++ beBytes 6 s.hits[i].toNat) (nextFree s)
    | 1, some i => dirDone ([1] ++ beBytes 2 i.val ++ entryBytes (Config.absentType s.free) s.shadow[i]) (nextFree s)
    | _, _ => dirRefused .range s

/-! ### RULE-MOVE (R54) -/

/-- One copy of a move: the source entry as it stands is written over the destination. -/
def copyEntry (b : Bank) (src dst : Nat) : Bank := b.setIfInBounds dst (b.getD src Entry.cleared)

/-- UP: `n` copies from `src` to `dst`, the lowest first. -/
def moveUp : Nat → Nat → Nat → Bank → Bank
  | 0, _, _, b => b
  | n + 1, src, dst, b => moveUp n (src + 1) (dst + 1) (copyEntry b src dst)

/-- DOWN: `n` copies from `src` to `dst`, the highest first. -/
def moveDown : Nat → Nat → Nat → Bank → Bank
  | 0, _, _, b => b
  | n + 1, src, dst, b => moveDown n src dst (copyEntry b (src + n) (dst + n))

/-- The copies of a move, one after another (R54; log 9). -/
def moveEntries (m : Move) (b : Bank) : Bank := if m.up then moveUp m.count m.src m.dst b else moveDown m.count m.src m.dst b

/-- RULE-MOVE begins (R54). Its copies end at RULE_MOVE_COMPLETION (log 9). -/
def dirRuleMove (ops : List Byte) (s : State) : DirResult :=
  if ops.length ≠ 7 then dirRefused .format s
  else
    let m : Move := { src := numAt ops 0 2, dst := numAt ops 2 2, count := numAt ops 4 2, up := numAt ops 6 1 == 0 }
    if 1 < numAt ops 6 1 ∨ m.count = 0 ∨ 256 < m.src + m.count ∨ 256 < m.dst + m.count then dirRefused .range s
    else .begun { s with move := some m }

/-! ### TABLE-COMMIT, TABLE-REVERT (R55, R56) -/

/-- Valid entries of a bank. -/
def validCount (b : Bank) : Nat := (b.toList.filter (·.valid)).length

/-- The SHADOW bank becomes ACTIVE and every hit counter 0 (R55). The model counts the bank it makes (log 7). -/
def commitTable (s : State) : State := { s with active := s.shadow, hits := Vector.replicate 256 0, bankGen := s.bankGen + 1 }

/-- TABLE-COMMIT (R55). -/
def dirTableCommit (ops : List Byte) (s : State) : DirResult :=
  if ops.length ≠ 0 then dirRefused .format s else dirDone (beBytes 2 (validCount s.shadow)) (commitTable s)

/-- TABLE-REVERT (R56). -/
def dirTableRevert (ops : List Byte) (s : State) : DirResult :=
  if ops.length ≠ 0 then dirRefused .format s else dirDone [] { s with shadow := s.active }

end Sys2Proof.Machine
end

