-- ==== Sys2Proof/Machine/Runner.lean ====
section
/-! DEFINITION. The runner (R158 to R160): a directive carried out, the budget test, the end of a directive and of a request. -/

namespace Sys2Proof.Machine

/-- A directive carried out by its code; a code that names no directive is refused FORMAT (R158). `last` says that it ends its request (R169). -/
def perform (last : Bool) (d : Directive) (s : State) : DirResult :=
  match d.code.toNat with
  | 0x10 => dirChanOpen d.ops s
  | 0x11 => dirChanSet d.ops s
  | 0x12 => dirChanClose d.ops s
  | 0x13 => dirChanRead d.ops s
  | 0x18 => dirKeyStage d.ops s
  | 0x19 => dirKeyCommit d.ops s
  | 0x1A => dirKeyErase d.ops s
  | 0x20 => dirSwitchNow d.ops s
  | 0x21 => dirSwitchAt d.ops s
  | 0x22 => dirSwitchCancel d.ops s
  | 0x23 => dirTimeRead d.ops s
  | 0x30 => dirRuleWrite d.ops s
  | 0x31 => dirRulePatch d.ops s
  | 0x32 => dirRuleClear d.ops s
  | 0x33 => dirRuleRead d.ops s
  | 0x34 => dirRuleMove d.ops s
  | 0x35 => dirTableCommit d.ops s
  | 0x36 => dirTableRevert d.ops s
  | 0x40 => dirPortSet d.ops s
  | 0x48 => dirLaneSet d.ops s
  | 0x50 => dirLoopSet d.ops s
  | 0x51 => dirTestSet d.ops s
  | 0x52 => dirTestInject d.ops s
  | 0x60 => dirCountSweep d.ops s
  | 0x61 => dirPortCounts d.ops s
  | 0x62 => dirStatusRead d.ops s
  | 0x63 => dirNoticeMask d.ops s
  | 0x70 => dirIdRead d.ops s
  | 0x71 => dirIdBurn d.ops s
  | 0x72 => dirZeroize d.ops s
  | 0x73 => dirRestart last d.ops s
  | _ => dirRefused .format s

/-- The size of a message that holds these records (R159). -/
def messageSize (records : List Record) : Nat := 4 + (records.map (fun r => 4 + r.data.length)).sum

/-- The budget test before directive `d` with `after` directives behind it (R159). -/
def budgetOk (records : List Record) (d : Directive) (after : Nat) : Bool :=
  messageSize records + 4 + dataSize d + 4 * after ≤ Config.replyMax

/-- The record of a directive that is not run (R158). -/
def skipped (d : Directive) : Record := { code := d.code, outcome := .skipped, data := [] }

/-- A directive of the request the runner holds is an operation under way (R158). -/
def opBusy (s : State) : Bool := s.move.isSome || s.burn.isSome

/-- The request ends and its reply waits for the sender (R160). -/
def finishRun (r : Run) (s : State) : State :=
  s.updAgent fun a =>
    { a with run := none, reply := some { place := r.place, sa := r.sa, msg := replyMessage r.id (statusCode s) r.records, final := a.restart.isSome } }

/-- The runner goes on with a request that has directives left, and ends one that has none. -/
def keepRun (r : Run) (s : State) : State :=
  match r.rest with
  | [] => finishRun r s
  | _ :: _ => s.updAgent fun a => { a with run := some r }

/-- The record of a directive joins its request; an outcome other than DONE skips every directive after it (R158). -/
def recordIn (r : Run) (rec : Record) : Run :=
  if rec.outcome = .done then { r with records := r.records ++ [rec] }
  else { r with rest := [], records := r.records ++ rec :: r.rest.map skipped }

/-- A directive ends: its record joins the request the runner holds, or is kept as the last record of a directive given outside a request (log 5). -/
def endDirective (rec : Record) (s : State) : State :=
  match s.agent.run with
  | some r => keepRun (recordIn r rec) s
  | none => { s with lastRecord := some rec }

/-- A directive is carried out and ends, or begins its operation. -/
def carryOut (last : Bool) (d : Directive) (s : State) : State :=
  match perform last d s with
  | .ended o data s' => endDirective { code := d.code, outcome := o, data } s'
  | .begun s' => s'

/-- The next directive of the request the runner holds: skipped with all after it when the budget test fails, else carried out (R158, R159). -/
def runOne (s : State) : State :=
  match s.agent.run with
  | none => s
  | some r =>
    match r.rest with
    | [] => finishRun r s
    | d :: rest =>
      let s1 := s.updAgent fun a => { a with run := some { r with rest } }
      if budgetOk r.records d rest.length then carryOut rest.isEmpty d s1
      else endDirective (skipped d) s1

/-- The next directive of the request in hand is a TIME-READ, and an earlier TIME-READ of the request reported the present count: it waits until the
counter has gone on, so that the two report increasing values (R92; log 38). -/
def timeWaits (s : State) : Bool :=
  match s.agent.run with
  | none => false
  | some r =>
    match r.rest with
    | [] => false
    | d :: _ => d.code == codeTimeRead && r.records.contains { code := codeTimeRead, outcome := .done, data := beBytes 8 s.time.toNat }

/-- Up to `n` directives of the request in hand, one after another, stopping where an operation is under way or a TIME-READ waits for the counter; the
sender is judged after each (R92, R158, R161, R167; logs 6 and 38). -/
def runMany : Nat → State → State
  | 0, s => s
  | n + 1, s => if opBusy s || timeWaits s then s else runMany n (settle (runOne s))

/-- The hand holds a reply (R158). -/
def replyInHand (s : State) : Bool :=
  match s.agent.hand with
  | some { kind := .reply _, .. } => true
  | _ => false

/-- The runner may take a request (R158, R169). -/
def mayTake (s : State) : Bool :=
  s.agent.run.isNone && s.agent.reply.isNone && !replyInHand s && s.agent.restart.isNone && !opBusy s

/-- The runner takes the oldest request in the queue, when it may (R158). -/
def takeOldest (s : State) : State :=
  match s.agent.queue with
  | [] => s
  | q :: rest =>
    if mayTake s then
      s.updAgent fun a => { a with queue := rest, run := some { id := q.id, place := q.place, sa := q.sa, rest := q.dirs, records := [] } }
    else s

/-- A directive command (log 5): the next directive of the request in hand when it is exactly this one; with no request in hand, a directive given
outside a request; otherwise, and while the part is blocked, an operation is under way, a restart is pending (no directive follows a RESTART, R169) or a
TIME-READ waits for the counter (R92), no event of the part. -/
def takeDirective (code : Byte) (ops : List Byte) (s : State) : State :=
  if blocked s || opBusy s || s.agent.restart.isSome || timeWaits s then s
  else
    match s.agent.run with
    | some r => if r.rest.head? = some { code, ops } then settle (runOne s) else s
    | none => settle (carryOut true { code, ops } s)

end Sys2Proof.Machine
end

