-- ==== Sys2Proof/Machine/ExecStartup.lean ====
section
/-! DEFINITION. The commands of start-up, pins and time: POWER_ON to LOS_RELEASE, RESTART_TIMEOUT, TIME_COUNTER_COUNT (R91, R127, R169 to R171, R175). -/

namespace Sys2Proof.Machine

abbrev Step := Host.Outcome State Fault Refusal

/-- POWER_ON (R169): a cold reset, with the pins and the strap at the levels power comes up with (log 10). -/
def execPowerOn (pins : Pins) (s : State) : Step := .next (coldReset { s with pins })

/-- RESET_N_ASSERT (R169): a cold reset; with the pin low no self-check begins. -/
def execResetNAssert (s : State) : Step :=
  .next (if s.pins.resetHigh then coldReset { s with pins := { s.pins with resetHigh := false } } else s)

/-- The self-check begins in TESTING when RESET_N goes high, long by the strap or the LONG-CHECK flag (R169, R170). -/
def releaseReset (s : State) : State :=
  let s1 := { s with pins := { s.pins with resetHigh := true } }
  match s1.part with
  | .testing none => { s1 with part := .testing (some (s1.pins.selftestLong || longCheck s1)) }
  | _ => s1

/-- RESET_N_RELEASE (R169). -/
def execResetNRelease (s : State) : Step := .next (if s.pins.resetHigh then s else releaseReset s)

/-- The first failing test of the self-check, as its STATUS code; test 1 is the known-answer test of the cipher core, test 4 the
store's check word on a locked part (R16, R170). -/
def selfCheckCode (cipherOk tablesOk windowsOk : Bool) (s : State) : Option Nat :=
  if !knownAnswerTest cipherOk then some 2
  else if !tablesOk then some 3
  else if !windowsOk then some 4
  else if lockBit s && !storeSumsToZero s.store then some 5
  else none

/-- Role and own address are latched from the store (R172). -/
def latchIdentity (s : State) : State := { s with role := storeRole s, ownAddr := storeAddr s }

/-- The timers of a lane unit that start when the part leaves TESTING (R121, R150). -/
def startLane (s : State) (l : Lane) : Lane :=
  { l with beaconTimer := some (beaconTimerFor s), rateTimer := if l.genOn then some (startTimer s (rateLen l.rate)) else l.rateTimer }

/-- The self-check passes (R171). -/
def selfCheckPass (s : State) : State :=
  let s1 := latchIdentity { s with part := if lockBit s then .running else .unprovisioned }
  loadIfLocked { s1 with lanes := mapVec (startLane s1) s1.lanes }

/-- The self-check under way ends (R170, R171). -/
def endSelfCheck (cipherOk tablesOk windowsOk : Bool) (s : State) : State :=
  match s.part with
  | .testing (some _) =>
    match selfCheckCode cipherOk tablesOk windowsOk s with
    | some code => { s with part := .failed code }
    | none => settle (selfCheckPass s)
  | _ => s

/-- SELF_CHECK_COMPLETION (R170, R171). The soundness of the cipher core and the results of the
memory tests are the command's operands (log 22). -/
def execSelfCheckCompletion (cipherOk tablesOk windowsOk : Bool) (s : State) : Step := .next (endSelfCheck cipherOk tablesOk windowsOk s)

/-- ZEROIZE_N_ASSERT (R175, R37). -/
def execZeroizeNAssert (s : State) : Step :=
  .next (if s.pins.zeroizeHigh then zeroizeTable { s with pins := { s.pins with zeroizeHigh := false } } else s)

/-- ZEROIZE_N goes high: channel 0 is loaded on a locked part that is not BLOCKED (R175). -/
def releaseZeroize (s : State) : State :=
  let s1 := { s with pins := { s.pins with zeroizeHigh := true } }
  settle (if blocked s1 then s1 else loadIfLocked s1)

/-- ZEROIZE_N_RELEASE (R175). -/
def execZeroizeNRelease (s : State) : Step := .next (if s.pins.zeroizeHigh then s else releaseZeroize s)

/-- A LOS pin is asserted (R127, R128, R148). -/
def assertLos (k : LaneId) (s : State) : State :=
  let s1 := { s with pins := { s.pins with los := s.pins.los ||| BitVec.ofNat 5 (2 ^ k.val) } }
  settle (setLaneState k .los (s1.updLane k fun l => { l with continuity := none, peerRun := 0, loopRun := none }))

/-- LOS_ASSERT (R127). -/
def execLosAssert (k : LaneId) (s : State) : Step := .next (if s.pins.los.getLsbD k.val then s else assertLos k s)

/-- A LOS pin is released (R127). -/
def releaseLos (k : LaneId) (s : State) : State :=
  let s1 := { s with pins := { s.pins with los := s.pins.los &&& ~~~ BitVec.ofNat 5 (2 ^ k.val) } }
  if (s1.lane k).state = .los then settle (setLaneState k .dark (restartContinuity k s1)) else s1

/-- LOS_RELEASE (R127). -/
def execLosRelease (k : LaneId) (s : State) : Step := .next (if s.pins.los.getLsbD k.val then releaseLos k s else s)

/-- RESTART_TIMEOUT (R169): 1 s after the RESTART ended the cold reset begins, unless it came before. -/
def execRestartTimeout (s : State) : Step := .next (if timerDue s.time s.agent.restart then coldReset s else s)

/-- TIME_COUNTER_COUNT (R91). -/
def execTimeCounterCount (s : State) : Step := .next (if s.pins.resetHigh then { s with time := s.time + 1 } else s)

end Sys2Proof.Machine
end

