-- ==== Sys2Proof/Machine/Classify.lean ====
section
/-! DEFINITION. The classifier's lookup (R40 to R45, R49). -/

namespace Sys2Proof.Machine

/-- The two uses an entry's direction admits (R42 test 2): outbound lookups and the return check, or inbound clear frames. -/
inductive Use where
  | outbound
  | inbound
deriving DecidableEq, Repr

/-- The direction of an entry admits a use (R42). -/
def directionAdmits (d : Direction) (u : Use) : Bool :=
  match d, u with
  | .both, _ => true
  | .out, .outbound => true
  | .inb, .inbound => true
  | _, _ => false

/-- The VLAN match admits inner bytes (R42). -/
def vlanAdmits (m : VlanMatch) (inner : List Byte) : Bool :=
  match m with
  | .any => true
  | .untagged => (vlanOf inner).isNone
  | .range lo hi =>
    match vlanOf inner with
    | some v => lo ≤ v && v ≤ hi
    | none => false

/-- The type match admits inner bytes (R42). -/
def typeAdmits (t : Option (BitVec 16)) (inner : List Byte) : Bool :=
  match t with
  | none => true
  | some t => typeOf inner == t

/-- An entry matches a lookup of inner bytes at a mask position (R42). -/
def entryMatches (e : Entry) (u : Use) (pos : PortId) (inner : List Byte) : Bool :=
  e.valid && directionAdmits e.direction u && e.ports.getLsbD pos.val && vlanAdmits e.vlan inner && typeAdmits e.etype inner

/-- The first entry from an index on that matches (R43). -/
def firstMatch (u : Use) (pos : PortId) (inner : List Byte) : List Entry → Nat → Option (Nat × Action)
  | [], _ => none
  | e :: rest, i => if entryMatches e u pos inner then some (i, e.action) else firstMatch u pos inner rest (i + 1)

/-- Inner bytes that keep BYPASS under NO-BYPASS: the marker first and channel 0 (R45). -/
def bypassExcepted (inner : List Byte) : Bool := word16 inner 0 == Config.marker && (word16 inner 4).extractLsb' 0 10 == 0

/-- The verdict of an action, NO-BYPASS turning a BYPASS (R45). -/
def verdictOf (noBypassFlag : Bool) (inner : List Byte) : Action → Verdict
  | .protect c => .protect c
  | .bypass => if noBypassFlag && !bypassExcepted inner then .blocked else .bypass
  | .discard => .discard

/-- A lookup that begins now, on the ACTIVE bank and the NO-BYPASS flag as they stand (R43 to R45). -/
def beginLookup (s : State) (u : Use) (pos : PortId) (inner : List Byte) : Lookup :=
  match firstMatch u pos inner s.active.toList 0 with
  | none => { hit := none, verdict := .noMatch, gen := s.bankGen }
  | some (i, act) => { hit := some (Fin.ofNat 256 i), verdict := verdictOf (noBypass s) inner act, gen := s.bankGen }

/-- The end of an outbound or inbound clear-frame lookup counts its hit when it began on the bank that is still ACTIVE (R40, R44). -/
def countHit (r : Lookup) (s : State) : State :=
  match r.hit with
  | none => s
  | some i => if r.gen = s.bankGen then { s with hits := bumpAt s.hits i 1 } else s

end Sys2Proof.Machine
end

