-- ==== Sys2Proof/Machine/Receive.lean ====
section
/-! DEFINITION. The inbound path's shared operations: steering (R76), slot selection (R79), routing (R75, R78, R86), the return queue (R145),
delivery (R116) and the hand-on (R85 to R87). -/

namespace Sys2Proof.Machine

/-! ### Lines of frames by place (R13) -/

/-- The inbound line of a place: a lane's inbound order, or a port's management frames (R13; log 13). -/
def State.inLine (s : State) : Place → List InItem
  | .port n => (s.port n).mgmtLine
  | .lane k => (s.lane k).inLine

def State.setInLine (s : State) (p : Place) (l : List InItem) : State :=
  match p with
  | .port n => s.updPort n fun q => { q with mgmtLine := l }
  | .lane k => s.updLane k fun q => { q with inLine := l }

/-- A frame joins the line of its place. -/
def State.pushIn (s : State) (p : Place) (i : InItem) : State := s.setInLine p (s.inLine p ++ [i])

/-- A frame that may still need a lookup, so that no later frame of its source begins one before it: a traffic frame in verification, whose RETURN-CHECK
is read at its completion (R44, R48; log 34). -/
def holdsLookups : InItem → Bool
  | .verifying w _ _ _ => 2 ≤ w.chan.val
  | _ => false

/-- The lookup of a frame begins, if it waits for one: a clear frame's as inbound, a recovered frame's return check as outbound (R47, R48). -/
def lookUp (s : State) : InItem → InItem
  | .clear f n => .lookup f n (beginLookup s .inbound n (innerBytes f))
  | .recovered inner n c octets own => .checking inner n c octets own (beginLookup s .outbound n (innerBytes inner))
  | i => i

/-- The lookups of a line begin in the order of its frames, up to the first frame that holds them (R44). -/
def beginLookups (s : State) : List InItem → List InItem
  | [] => []
  | i :: rest => if holdsLookups i then i :: rest else lookUp s i :: beginLookups s rest

/-- The lookups of the line of a place that can begin, begin (R44). -/
def State.startLookups (s : State) (p : Place) : State := s.setInLine p (beginLookups s (s.inLine p))

/-- The origin a work record names for a place of arrival (R12). -/
def originOf : Place → Origin
  | .port n => .port n
  | .lane k => .lane k

/-- A lane counter of the place of arrival; an inner port has none of them. -/
def countAtLane (p : Place) (c : LaneCtr) (s : State) : State :=
  match p with
  | .lane k => s.countLane k c
  | .port _ => s

/-! ### Steering (R76) -/

/-- The inner port to which a traffic or clear frame of lane `k` is bound at arrival, if the steering takes it from that lane (R76). -/
def boundPort (s : State) (k : LaneId) : Option PortId :=
  match portOfLane k with
  | some n => if s.prot.steering = some n then none else some n
  | none => s.prot.steering

/-- The inner port to which a management transit frame is bound (R76). -/
def transitPort (s : State) (k : LaneId) : Option PortId :=
  match portOfLane k with
  | some n => some n
  | none => s.prot.steering

/-! ### Slot selection and the tentative check (R78, R79) -/

/-- A frame handed to the cipher core on slot `x`: the in-flight count increments and the work record is made (R12, R23, R79 step 3). -/
def beginVerify (p : Place) (f : Frame) (own : Bool) (port : Option PortId) (x : Letter) (s : State) : State :=
  let h := headerOf f
  let c := headerChan h
  let slot := (s.chan c).inSlot x
  let w : Work := { origin := originOf p, op := .verify, chan := c, letter := x, load := slot.load, seq := h.seq, key := slot.key, salt := slot.salt }
  (s.updChan c fun ch => ch.setIn x { slot with inFlight := slot.inFlight + 1 }).pushIn p (.verifying w f own port)

/-- Slot selection and the tentative check of a frame routed to its channel record (R79); own-role frames make no tentative check (R78). -/
def selectFrame (p : Place) (f : Frame) (own : Bool) (port : Option PortId) (s : State) : State :=
  let h := headerOf f
  let c := headerChan h
  match selectSlot (s.chan c) h.epoch with
  | none => if own then countAtLane p .ownFailed s else s.countChan c .unknownEpoch
  | some x =>
    if own then beginVerify p f own port x s
    else
      let slot := (s.chan c).inSlot x
      match windowCtr (windowTest (s.chan c).config.window slot.top slot.marks h.seq.toNat) with
      | some ctr => s.countChan c ctr
      | none => beginVerify p f own port x s

/-! ### Routing (R75, R78, R86) -/

/-- A channel 0 frame addressed to the part, from any place (R86). A CLEAR one is taken, and one with origin bit 1 and no CLEAR flag is counted
not-request, now: ahead of earlier frames of its lane that are still on their way (log 41). -/
def routeManagement (p : Place) (f : Frame) (s : State) : State :=
  let h := headerOf f
  if headerClear h then intakeClear p f s
  else if headerOrigin h then s.countAgent .notRequest
  else selectFrame p f false none s

/-- A frame of lane `k` bound by the steering and then selected, or dropped as unselected (R76, R79). -/
def steerAndSelect (k : LaneId) (f : Frame) (own : Bool) (s : State) : State :=
  match boundPort s k with
  | some n => selectFrame (.lane k) f own (some n) s
  | none => s.countLane k .unselected

/-- A well-formed envelope frame of lane `k` routed by channel, origin bit and DA (R75). `fed` marks a frame fed back by CIPHER loopback. Its origin bit is
judged against the latched role as any other's (R78), so one protected before a LOCK burn changed the role is handled as peer-role (log 44). -/
def routeEnvelope (k : LaneId) (f : Frame) (fed : Bool) (s : State) : State :=
  let h := headerOf f
  let own := headerOrigin h == roleBit s.role
  if headerChan h = 0 then
    if frameDa f = s.ownAddr then routeManagement (.lane k) f s
    else if headerOrigin h then
      match transitPort s k with
      | some n => s.pushIn (.lane k) (.ready (.transit f n))
      | none => s.countLane k .unselected
    else s.countLane k .foreign
  else if headerChan h = 1 then selectFrame (.lane k) f own none s
  else if own then if fed then steerAndSelect k f true s else s.countLane k .ownDropped
  else steerAndSelect k f false s

/-- A frame that carries the marker, sized and parsed: MALFORMED, oversize, or routed (R3, R72 tests 5 and 8). -/
def receiveEnvelope (k : LaneId) (f : Frame) (s : State) : State :=
  if Config.envelopeMax < f.length then s.countLane k .oversize
  else if malformed f then s.countLane k .malformed
  else routeEnvelope k f false s

/-- A clear frame of lane `k`: bound by the steering and handed to the classifier in its lane's order (R44, R47, R76, R77). -/
def receiveClear (k : LaneId) (f : Frame) (s : State) : State :=
  match boundPort s k with
  | some n => (s.pushIn (.lane k) (.clear f n)).startLookups (.lane k)
  | none => s.countLane k .unselected

/-- A frame that passed the FCS test on a lane in LINE loopback: it joins the return queue or is an overrun, and a returned channel 1 frame also
goes on to the lane unit (R74, R145; log 14). -/
def returnFrame (k : LaneId) (f : Frame) (s : State) : State :=
  if Config.returnCapacity < totalBytes (s.lane k).returnQueue + f.length then s.countLane k .loopOverrun
  else
    let s1 := s.updLane k fun l => { l with returnQueue := l.returnQueue ++ [f] }
    if hasMarker f && 6 ≤ (innerBytes f).length && headerChan (headerOf f) == 1 then receiveEnvelope k f s1 else s1

/-- Tests 3 to 8 of the lane receiver on a lane that is not in loopback (R72). -/
def receiveLine (k : LaneId) (f : Frame) (s : State) : State :=
  if !fcsGood f then s.countLane k .badFcs
  else if hasMarker f then receiveEnvelope k f s
  else if f.length < Config.innerMin then s.countLane k .undersize
  else if Config.innerMax < f.length then s.countLane k .oversize
  else if isMacControl f then s.countLane k .controlDropped
  else receiveClear k f s

/-! ### Delivery (R116) and the hand-on (R85 to R87) -/

/-- An entry request to delivery queue `n`: the state after it, and whether the frame was appended (R116). -/
def deliver (n : PortId) (f : PortFrame) (s : State) : State × Bool :=
  if Config.deliveryCapacity < totalBytes ((s.port n).queue.map (·.bytes)) + f.bytes.length then (s.countPort n .deliveryOverflow, false)
  else (s.updPort n fun p => { p with queue := p.queue ++ [f] }, true)

/-- A frame of a channel handed on: the channel's verified counters for a peer-role frame or a request, own-role verified on the lane otherwise
(R85). -/
def countVerified (p : Place) (c : Chan) (octets : Nat) (own : Bool) (s : State) : State :=
  if own then countAtLane p .ownVerified s else (s.countChan c .verifiedFrames).countChan c .verifiedOctets octets

/-- A resolved frame handed on to a delivery queue, the agent or the lane unit (R77, R85 to R87). -/
def handOn (p : Place) (h : HandOn) (s : State) : State :=
  match h with
  | .traffic inner n c octets own =>
    let s1 := countVerified p c octets own s
    let s2 := if own then s1 else countAtLane p .delivered s1
    (deliver n { bytes := inner, final := false } s2).1
  | .clear f n => (deliver n { bytes := f, final := false } (countAtLane p .delivered s)).1
  | .transit f n => (deliver n { bytes := f, final := false } (countAtLane p .mgmtTransit s)).1
  | .request msg sa octets => takeRequest p sa false msg (countVerified p 0 octets false s)
  | .beacon payload origin octets own =>
    let s1 := countVerified p 1 octets own s
    match p with
    | .lane k => receiveBeacon k payload origin own s1
    | .port _ => s1
  | .test payload octets own =>
    let s1 := countVerified p 1 octets own s
    match p with
    | .lane k => judgeTest k (payloadGood payload) s1
    | .port _ => s1
  | .testFailed =>
    match p with
    | .lane k => judgeTest k false s
    | .port _ => s

end Sys2Proof.Machine
end

