-- ==== Sys2Proof/Machine/ExecAgent.lean ====
section
/-! DEFINITION. The commands of the agent and of operations that end: HOLDOFF_EXPIRY, RUNNER_TAKE_REQUEST, SENDER_SEND, RULE_MOVE_COMPLETION,
ID_BURN_COMPLETION (R54, R157, R158, R161, R167, R174). -/

namespace Sys2Proof.Machine

/-- HOLDOFF_EXPIRY (R167): the notice conditions are judged again. -/
def execHoldoffExpiry (s : State) : Step :=
  .next (if timerDue s.time s.agent.holdoff then settle (s.updAgent fun a => { a with holdoff := none }) else s)

/-- RUNNER_TAKE_REQUEST (R158): with no request in hand the runner takes the oldest one it may; up to `count` directives of the request in hand then
run in this step (log 6). -/
def execRunnerTakeRequest (count : Nat) (s : State) : Step :=
  .next (if blocked s then s
    else runMany count (match s.agent.run with
      | none => takeOldest s
      | some _ => s))

/-! ### The sender (R161) -/

/-- The control queue kind of the frame in hand. -/
def handCtl : HandKind → CtlKind
  | .reply final => .reply final
  | .notice _ _ => .notice

/-- The frame waits for a restart that ends with its transmission (R169). -/
def handFinal : HandKind → Bool
  | .reply final => final
  | .notice _ _ => false

/-- The counter of a frame in hand that was appended (R161). -/
def sentCtr : HandKind → AgentCtr
  | .reply _ => .repliesSent
  | .notice _ _ => .noticesSent

/-- The frame in hand is appended: the hand is empty, the frame is counted, and a protected one counts on channel 0 (R71, R161). -/
def handSent (kind : HandKind) (octets : Option Nat) (s : State) : State :=
  let s1 := (s.updAgent fun a => { a with hand := none }).countAgent (sentCtr kind)
  match octets with
  | some n => (s1.countChan 0 .protectedFrames).countChan 0 .protectedOctets n
  | none => s1

/-- The frame in hand is offered to the queue of its place: appended, refused and held, or lost (R161). One that a full control queue refused before its
lane entered LINE loopback is lost at its next offer, if the queue is still full (log 40). -/
def sendHand (place : Place) (kind : HandKind) (bytes : Frame) (octets : Option Nat) (s : State) : State :=
  match place with
  | .lane k =>
    match offerControl { kind := handCtl kind, bytes } (s.lane k).control with
    | some q => handSent kind octets (s.updLane k fun l => { l with control := q })
    | none => if (s.lane k).loopMode = .line then loseHand kind s else s
  | .port n =>
    let r := deliver n { bytes, final := handFinal kind } s
    if r.2 then handSent kind octets r.1 else loseHand kind r.1

/-- The sender offers the frame in hand when it is ready (R161). -/
def senderOffers (s : State) : State :=
  match s.agent.hand with
  | some hand =>
    match hand.stage with
    | .ready bytes octets => settle (sendHand hand.place hand.kind bytes octets s)
    | .protecting _ _ _ _ _ => s
  | none => s

/-- SENDER_SEND (R161). -/
def execSenderSend (s : State) : Step := .next (senderOffers s)

/-! ### RULE_MOVE_COMPLETION (R54) -/

/-- The copies of the move are made and the directive ends DONE (R54). -/
def moveCompleted (m : Move) (s : State) : State :=
  settle (endDirective { code := codeRuleMove, outcome := .done, data := [] } { s with move := none, shadow := moveEntries m s.shadow })

/-- RULE_MOVE_COMPLETION (R54). -/
def execRuleMoveCompletion (s : State) : Step :=
  .next (match s.move with
    | some m => moveCompleted m s
    | none => s)

/-! ### ID_BURN_COMPLETION (R174) -/

/-- The latched role changed: selection, steering and echo become none with the cuts of the port that was bridged, the adoption run and the WTR timer
end, and in the RACK role the arbiter runs (R174, R135). `was` is the port bridged under the old role. -/
def roleChanged (was : Option PortId) (s : State) : State :=
  runArbiter (moveBridging was none (s.updProt fun p =>
    { p with selection := none, steering := none, echo := none, candidate := none, adoptCount := 0, wtrTimer := none }))

/-- Queued requests that came CLEAR are removed and counted CLEAR refused (R157). -/
def refuseClear (s : State) : State :=
  s.updAgent fun a =>
    { a with queue := a.queue.filter (fun q => !q.clear), counters := bumpAt a.counters (agentCtrIdx .clearRefused) (a.queue.filter (·.clear)).length }

/-- The effects of the burn of LOCK (R174). -/
def lockBurned (s : State) : State :=
  let s1 := latchIdentity s
  let s2 := if s1.role = s.role then s1 else roleChanged (bridged s) s1
  refuseClear { loadIfLocked (s2.updChan 0 emptySlots) with part := .running }

/-- The store with a bit burned. -/
def burnBit (st : Store) (w : Fin 32) (b : Fin 16) : Store := st.set w (st[w] ||| BitVec.ofNat 16 (2 ^ b.val))

/-- The burned bit reads 1, LOCK has its effects, and the directive ends DONE with the word as ID-READ returns it, words 5 to 22 as zero (R14, R174,
12.6; log 37). -/
def burnCompleted (b : Burn) (s : State) : State :=
  let s1 := { s with store := burnBit s.store b.word b.bit, burn := none }
  let s2 := if b.word = 4 ∧ b.bit = 0 then lockBurned s1 else s1
  settle (endDirective { code := codeIdBurn, outcome := .done, data := idWordBytes s2.store b.word } s2)

/-- ID_BURN_COMPLETION (R174): after 100 µs. -/
def execIdBurnCompletion (s : State) : Step :=
  .next (match s.burn with
    | some b => if timerDue s.time (some b.timer) then burnCompleted b s else s
    | none => s)

end Sys2Proof.Machine
end

