-- ==== Sys2Proof/Machine/ExecDirectives.lean ====
section
/-! DEFINITION. The directive commands, each its directive's code and operand bytes given to the runner (R158; log 5). What each does stands in
the files `DirChannels`, `DirClassifier`, `DirLines` and `DirAgent`. -/

namespace Sys2Proof.Machine

/-- CHAN_OPEN (R30). -/
def execChanOpen (ops : List Byte) (s : State) : Step := .next (takeDirective codeChanOpen ops s)

/-- CHAN_SET (R31). -/
def execChanSet (ops : List Byte) (s : State) : Step := .next (takeDirective codeChanSet ops s)

/-- CHAN_CLOSE (R33). -/
def execChanClose (ops : List Byte) (s : State) : Step := .next (takeDirective codeChanClose ops s)

/-- CHAN_READ (R34). -/
def execChanRead (ops : List Byte) (s : State) : Step := .next (takeDirective codeChanRead ops s)

/-- KEY_STAGE (R25). -/
def execKeyStage (ops : List Byte) (s : State) : Step := .next (takeDirective codeKeyStage ops s)

/-- KEY_COMMIT (R26). -/
def execKeyCommit (ops : List Byte) (s : State) : Step := .next (takeDirective codeKeyCommit ops s)

/-- KEY_ERASE (R29). -/
def execKeyErase (ops : List Byte) (s : State) : Step := .next (takeDirective codeKeyErase ops s)

/-- SWITCH_NOW (R98). -/
def execSwitchNow (ops : List Byte) (s : State) : Step := .next (takeDirective codeSwitchNow ops s)

/-- SWITCH_AT (R99). -/
def execSwitchAt (ops : List Byte) (s : State) : Step := .next (takeDirective codeSwitchAt ops s)

/-- SWITCH_CANCEL (R101). -/
def execSwitchCancel (ops : List Byte) (s : State) : Step := .next (takeDirective codeSwitchCancel ops s)

/-- TIME_READ (R92). -/
def execTimeRead (ops : List Byte) (s : State) : Step := .next (takeDirective codeTimeRead ops s)

/-- RULE_WRITE (R50). -/
def execRuleWrite (ops : List Byte) (s : State) : Step := .next (takeDirective codeRuleWrite ops s)

/-- RULE_PATCH (R51). -/
def execRulePatch (ops : List Byte) (s : State) : Step := .next (takeDirective codeRulePatch ops s)

/-- RULE_CLEAR (R52). -/
def execRuleClear (ops : List Byte) (s : State) : Step := .next (takeDirective codeRuleClear ops s)

/-- RULE_READ (R53). -/
def execRuleRead (ops : List Byte) (s : State) : Step := .next (takeDirective codeRuleRead ops s)

/-- RULE_MOVE (R54). -/
def execRuleMove (ops : List Byte) (s : State) : Step := .next (takeDirective codeRuleMove ops s)

/-- TABLE_COMMIT (R55). -/
def execTableCommit (ops : List Byte) (s : State) : Step := .next (takeDirective codeTableCommit ops s)

/-- TABLE_REVERT (R56). -/
def execTableRevert (ops : List Byte) (s : State) : Step := .next (takeDirective codeTableRevert ops s)

/-- PORT_SET (R114). -/
def execPortSet (ops : List Byte) (s : State) : Step := .next (takeDirective codePortSet ops s)

/-- LANE_SET (R138). -/
def execLaneSet (ops : List Byte) (s : State) : Step := .next (takeDirective codeLaneSet ops s)

/-- LOOP_SET (R144). -/
def execLoopSet (ops : List Byte) (s : State) : Step := .next (takeDirective codeLoopSet ops s)

/-- TEST_SET (R149). -/
def execTestSet (ops : List Byte) (s : State) : Step := .next (takeDirective codeTestSet ops s)

/-- TEST_INJECT (R151). -/
def execTestInject (ops : List Byte) (s : State) : Step := .next (takeDirective codeTestInject ops s)

/-- COUNT_SWEEP (R162). -/
def execCountSweep (ops : List Byte) (s : State) : Step := .next (takeDirective codeCountSweep ops s)

/-- PORT_COUNTS (R163). -/
def execPortCounts (ops : List Byte) (s : State) : Step := .next (takeDirective codePortCounts ops s)

/-- STATUS_READ (R164). -/
def execStatusRead (ops : List Byte) (s : State) : Step := .next (takeDirective codeStatusRead ops s)

/-- NOTICE_MASK (R166). -/
def execNoticeMask (ops : List Byte) (s : State) : Step := .next (takeDirective codeNoticeMask ops s)

/-- ID_READ (R173). -/
def execIdRead (ops : List Byte) (s : State) : Step := .next (takeDirective codeIdRead ops s)

/-- ID_BURN (R174). -/
def execIdBurn (ops : List Byte) (s : State) : Step := .next (takeDirective codeIdBurn ops s)

/-- ZEROIZE (R176). -/
def execZeroize (ops : List Byte) (s : State) : Step := .next (takeDirective codeZeroize ops s)

/-- RESTART (R169). -/
def execRestart (ops : List Byte) (s : State) : Step := .next (takeDirective codeRestart ops s)

end Sys2Proof.Machine
end

