-- ==== Sys2Proof/Machine/ExecInbound.lean ====
section
/-! DEFINITION. The commands of the inbound path: LANE_FRAME_ARRIVAL, INBOUND_LOOKUP_END, VERIFY_COMPLETION, RETURN_CHECK, INBOUND_HAND_ON
(R47, R48, R72 to R87). -/

namespace Sys2Proof.Machine

/-! ### The lane receiver (R72, R74) -/

/-- A frame that reaches test 2 counts, and goes on by the loop mode of the lane (R72, R74). -/
def arriveLane (k : LaneId) (f : Frame) (s : State) : State :=
  let s1 := (s.countLane k .framesReceived).countLane k .octetsReceived f.length
  settle <| match (s.lane k).loopMode with
    | .cipher => s1
    | .line => if fcsGood f then returnFrame k f s1 else s1.countLane k .badFcs
    | .none => receiveLine k f s1

/-- LANE_FRAME_ARRIVAL (R72). -/
def execLaneFrameArrival (k : LaneId) (f : Frame) (beganBlocked : Bool) (s : State) : Step :=
  .next (if blocked s || beganBlocked then s else arriveLane k f s)

/-! ### The end of an inbound clear-frame lookup (R47) -/

/-- The frame at place `i` of a line leaves it. -/
def dropIn (p : Place) (i : Nat) (s : State) : State := s.setInLine p ((s.inLine p).eraseIdx i)

/-- The frame at place `i` of a line goes on to another stage. -/
def stageIn (p : Place) (i : Nat) (item : InItem) (s : State) : State := s.setInLine p ((s.inLine p).set i item)

/-- The frame is under a lookup. -/
def underLookup : InItem → Bool
  | .lookup _ _ _ => true
  | .checking _ _ _ _ _ _ => true
  | _ => false

/-- The place in a line of the oldest frame under a lookup of either kind, whose result is taken next (R13, R44). -/
def resultIndex (line : List InItem) : Nat := line.findIdx underLookup

/-- What the inbound path does on a lookup's result (R47, R49). -/
def actInbound (k : LaneId) (i : Nat) (f : Frame) (n : PortId) (v : Verdict) (s : State) : State :=
  match v with
  | .bypass => stageIn (.lane k) i (.ready (.clear f n)) s
  | .blocked => dropIn (.lane k) i (s.countLane k .bypassBlocked)
  | .protect _ => dropIn (.lane k) i (s.countLane k .discarded)
  | .discard => dropIn (.lane k) i (s.countLane k .discarded)
  | .noMatch => dropIn (.lane k) i (s.countLane k .noMatch)

/-- The oldest lookup of lane `k` ends, a clear frame's (R40, R44, R47). While it is a return check no clear-frame lookup ends (log 1). -/
def endInboundLookup (k : LaneId) (s : State) : State :=
  let i := resultIndex (s.lane k).inLine
  match (s.lane k).inLine[i]? with
  | some (.lookup f n r) => actInbound k i f n r.verdict (countHit r s)
  | _ => s

/-- INBOUND_LOOKUP_END (R47). -/
def execInboundLookupEnd (k : LaneId) (s : State) : Step := .next (endInboundLookup k s)

/-! ### Completion of a verify operation (R83, R84) -/

/-- The slot a work record names after one of its verify operations completed (R23). -/
def verifyCompleted (w : Work) (s : State) : State :=
  s.updChan w.chan fun ch => ch.setIn w.letter { ch.inSlot w.letter with inFlight := (ch.inSlot w.letter).inFlight - 1 }

/-- The stale test (R84 step 1). -/
def isStale (w : Work) (s : State) : Bool :=
  ((s.chan w.chan).inSlot w.letter).state == .empty || ((s.chan w.chan).inSlot w.letter).load != w.load

/-- A failed verification (R83). -/
def verifyFailed (p : Place) (i : Nat) (w : Work) (f : Frame) (own : Bool) (s : State) : State :=
  let s1 := if own then countAtLane p .ownFailed s else reportChan w.chan (kindBit .authfail) (s.countChan w.chan .authFail)
  if w.chan = 1 ∧ headerTest (headerOf f) = true then stageIn p i (.ready .testFailed) s1 else dropIn p i s1

/-- The final check's window update and promotion of a frame that passed it (R81, R84 steps 3 and 4, R102). -/
def acceptFrame (w : Work) (s : State) : State :=
  let ch := s.chan w.chan
  let slot := ch.inSlot w.letter
  let u := windowUpdate ch.config.window slot.top slot.marks w.seq.toNat
  let r := promote s.time (ch.setIn w.letter { slot with top := u.1, marks := u.2 }) w.letter
  reportChan w.chan r.2 (s.updChan w.chan fun _ => r.1)

/-- The hand-on of a frame that passed completion, by its channel. A traffic frame whose channel has RETURN-CHECK on goes to its return check, whose
lookup begins in the order of its lane (R44, R48, R85). -/
def beginHandOn (p : Place) (i : Nat) (w : Work) (f : Frame) (own : Bool) (port : Option PortId) (text : List Byte) (s : State) : State :=
  let octets := f.length - 28
  if w.chan = 0 then stageIn p i (.ready (.request text (frameSa f) octets)) s
  else if w.chan = 1 then
    if headerTest (headerOf f) then stageIn p i (.ready (.test text octets own)) s
    else stageIn p i (.ready (.beacon text (headerOrigin (headerOf f)) octets own)) s
  else
    match port with
    | none => dropIn p i s
    | some n =>
      if (s.chan w.chan).config.returnCheck then
        stageIn p i (.recovered (recoveredFrame f text) n w.chan octets own) s
      else stageIn p i (.ready (.traffic (recoveredFrame f text) n w.chan octets own)) s

/-- A frame that verified: the stale test, the final check, the update, promotion and the hand-on, in this order (R84). -/
def verifyGood (p : Place) (i : Nat) (w : Work) (f : Frame) (own : Bool) (port : Option PortId) (text : List Byte) (s : State) : State :=
  if isStale w s then dropIn p i (if own then countAtLane p .ownFailed s else s.countChan w.chan .stale)
  else if own then beginHandOn p i w f own port text s
  else
    let slot := (s.chan w.chan).inSlot w.letter
    match windowCtr (windowTest (s.chan w.chan).config.window slot.top slot.marks w.seq.toNat) with
    | some ctr => dropIn p i (s.countChan w.chan ctr)
    | none => beginHandOn p i w f own port text (acceptFrame w s)

/-- The verify operation of the frame at place `i` of a line completes, and the lookups it held back begin (R44, R83, R84). -/
def completeVerify (p : Place) (i : Nat) (s : State) : State :=
  match (s.inLine p)[i]? with
  | some (.verifying w f own port) =>
    let s1 := verifyCompleted w s
    let s2 := match openFrame w.key w.salt f with
      | none => verifyFailed p i w f own s1
      | some text => verifyGood p i w f own port text s1
    settle (s2.startLookups p)
  | _ => s

/-- VERIFY_COMPLETION (R84). -/
def execVerifyCompletion (p : Place) (i : Nat) (s : State) : Step := .next (completeVerify p i s)

/-! ### The return check (R48) -/

/-- The return check of the frame at place `i` of lane `k` ends, which is the oldest lookup of the lane (R44, R48). No other return check ends before
it (log 1). -/
def endReturnCheck (k : LaneId) (i : Nat) (s : State) : State :=
  if i ≠ resultIndex (s.lane k).inLine then s
  else match (s.lane k).inLine[i]? with
  | some (.checking inner n c octets own r) =>
    if r.verdict = .protect c then stageIn (.lane k) i (.ready (.traffic inner n c octets own)) s
    else dropIn (.lane k) i (s.countChan c .returnMismatch)
  | _ => s

/-- RETURN_CHECK (R48). -/
def execReturnCheck (k : LaneId) (i : Nat) (s : State) : Step := .next (endReturnCheck k i s)

/-! ### The hand-on (R85 to R87) -/

/-- The oldest frame of a line, when it is resolved, is handed on (R13, R85). -/
def handOnOldest (p : Place) (s : State) : State :=
  match s.inLine p with
  | .ready h :: _ => settle (handOn p h (dropIn p 0 s))
  | _ => s

/-- INBOUND_HAND_ON (R85). -/
def execInboundHandOn (p : Place) (s : State) : Step := .next (handOnOldest p s)

end Sys2Proof.Machine
end

