-- ==== Sys2Proof/Machine/ExecLane.lean ====
section
/-! DEFINITION. The commands of a lane unit: CONTINUITY_TIMER_EXPIRY to LANE_TRANSMIT_END (R71, R109, R111, R122 to R129, R145, R146, R150). -/

namespace Sys2Proof.Machine

/-! ### Timers of the lane unit (R124, R127, R150) -/

/-- The continuity timer of lane `k` expires (R127, R128, R148). -/
def continuityExpired (k : LaneId) (s : State) : State :=
  let s1 := s.updLane k fun l => { l with continuity := none, peerRun := 0, loopRun := none }
  match (s.lane k).state with
  | .up => settle (setLaneState k .dark (s1.countLane k .continuityLosses))
  | .looped => settle (setLaneState k .dark (s1.countLane k .continuityLosses))
  | .dark => s1
  | .los => s1

/-- CONTINUITY_TIMER_EXPIRY (R127). -/
def execContinuityTimerExpiry (k : LaneId) (s : State) : Step :=
  .next (if timerDue s.time (s.lane k).continuity then continuityExpired k s else s)

/-- The header of a channel 1 frame (R4 to R6, R15). -/
def linkHeader (s : State) (control epoch : Byte) (n : Seq) : Header :=
  { control, epoch, chanField := chanFieldOf (roleBit s.role) 1, seq := n }

/-- A beacon is generated, or withheld when channel 1 refuses its sequence (R124, R125). -/
def generateBeacon (k : LaneId) (s : State) : State :=
  match assignSequence 1 (.unit k) s with
  | (.inl _, s1) => s1.countLane k .beaconWithheld
  | (.inr (w, epoch), s1) =>
    s1.updLane k fun l =>
      { l with unitLine := l.unitLine ++ [.protecting .beacon w (linkHeader s controlBeacon epoch w.seq) s.ownAddr (padMessage 44 (beaconBytes k s))] }

/-- The beacon timer of lane `k` expires and restarts (R124). -/
def beaconExpired (k : LaneId) (s : State) : State :=
  let s1 := s.updLane k fun l => { l with beaconTimer := some (beaconTimerFor s) }
  if (s.lane k).loopMode = .line then s1 else settle (generateBeacon k s1)

/-- BEACON_TIMER_EXPIRY (R124). -/
def execBeaconTimerExpiry (k : LaneId) (s : State) : Step :=
  .next (if timerDue s.time (s.lane k).beaconTimer && !blocked s then beaconExpired k s else s)

/-- A due test frame is made, or withheld when channel 1 refuses its sequence (R150 steps 1 to 4). -/
def generateTest (k : LaneId) (s : State) : State :=
  match assignSequence 1 (.unit k) s with
  | (.inl _, s1) => s1.countLane k .testWithheld
  | (.inr (w, epoch), s1) =>
    let l := s.lane k
    let r := patternBytes (l.innerLen - 16) l.pattern
    let payload := if l.inject = .pattern then invertBit64 r.1 else r.1
    (s1.countLane k .testGenerated).updLane k fun l' =>
      { l' with pattern := r.2, inject := .none,
                unitLine := l'.unitLine ++
                  [.protecting (.test (l.inject == .tag)) w (linkHeader s controlTest epoch w.seq) s.ownAddr payload] }

/-- The rate timer of lane `k` expires and restarts (R150). -/
def rateExpired (k : LaneId) (s : State) : State :=
  let s1 := s.updLane k fun l => { l with rateTimer := some (startTimer s (rateLen l.rate)) }
  if (s.lane k).loopMode = .line then s1.countLane k .testWithheld else settle (generateTest k s1)

/-- RATE_TIMER_EXPIRY (R150). -/
def execRateTimerExpiry (k : LaneId) (s : State) : Step :=
  .next (if timerDue s.time (s.lane k).rateTimer && !blocked s then rateExpired k s else s)

/-! ### The control queue takes the lane unit's own frames (R71, R123) -/

/-- The control queue kind of a lane unit's frame. -/
def ctlKindOf : LinkKind → CtlKind
  | .beacon => .beacon
  | .test _ => .test

/-- The counter of a frame that found no place (R123). -/
def skipCtr : LinkKind → LaneCtr
  | .beacon => .beaconSkipped
  | .test _ => .testSkipped

/-- A completed frame of lane unit `k` is offered to its control queue (R71, R123). -/
def offerUnit (k : LaneId) (kind : LinkKind) (env : Frame) (s : State) : State :=
  match offerControl { kind := ctlKindOf kind, bytes := env } (s.lane k).control with
  | none => s.countLane k (skipCtr kind)
  | some q => ((s.updLane k fun l => { l with control := q }).countChan 1 .protectedFrames).countChan 1 .protectedOctets (env.length - 28)

/-- The oldest frame of lane unit `k`, when it passed its completion, is offered (R13, R123). -/
def offerOldest (k : LaneId) (s : State) : State :=
  match (s.lane k).unitLine with
  | .passed kind env :: rest => offerUnit k kind env (s.updLane k fun l => { l with unitLine := rest })
  | _ => s

/-- CONTROL_QUEUE_OFFER (R123). -/
def execControlQueueOffer (k : LaneId) (s : State) : Step := .next (offerOldest k s)

/-! ### The lane transmitter (R122) -/

/-- A frame begins transmission on lane `k` (R122). -/
def beginTransmit (k : LaneId) (bytes : Frame) (source : TxSource) (s : State) : State :=
  let s1 := (s.updLane k fun l => { l with tx := some { bytes, source } }).countLane k .framesSent
  let s2 := s1.countLane k .octetsSent bytes.length
  match source with
  | .control .beacon => s2.countLane k .beaconsSent
  | .buffer _ _ => s2.countLane k .bufferFramesSent
  | _ => s2

/-- The head frame of buffer `n` leaves it, and the removal is judged against XON (R109, R111). -/
def removeHead (rest : List BufFrame) (p : Port) : Port := judgeRemoval { p with buffer := rest }

/-- The head frame of the outbound buffer that lane `k` serves is taken (R109, R122). -/
def takeBuffer (k : LaneId) (s : State) : State :=
  match servedPort s k with
  | none => s
  | some n =>
    match (s.port n).buffer with
    | [] => s
    | f :: rest => beginTransmit k f.bytes (.buffer n f.isProtected) (s.updPort n (removeHead rest))

/-- The head frame of the return queue is taken (R145). -/
def takeReturned (k : LaneId) (s : State) : State :=
  match (s.lane k).returnQueue with
  | [] => s
  | f :: rest => beginTransmit k f .returned (s.updLane k fun l => { l with returnQueue := rest })

/-- The idle transmitter takes the next frame: by strict priority, or from the return queue in LINE loopback (R122, R145). -/
def transmitNext (k : LaneId) (s : State) : State :=
  if (s.lane k).loopMode = .line then takeReturned k s
  else match takeControl (s.lane k).control with
    | some (f, rest) => beginTransmit k f.bytes (.control f.kind) (s.updLane k fun l => { l with control := rest })
    | none => takeBuffer k s

/-- LANE_TRANSMIT_START (R122). -/
def execLaneTransmitStart (k : LaneId) (s : State) : Step :=
  .next (if blocked s || (s.lane k).tx.isSome then s else transmitNext k s)

/-- What the end of a transmission brings: the restart that waited for a reply (R169), or the feedback of CIPHER loopback, at test 8 (R74, R146). -/
def afterTransmit (k : LaneId) (t : LaneTx) (s : State) : State :=
  match t.source with
  | .control (.reply true) => if s.agent.restart.isSome then coldReset s else s
  | .buffer _ true =>
    if (s.lane k).loopMode = .cipher then
      settle (if malformed t.bytes then s.countLane k .malformed else routeEnvelope k t.bytes true s)
    else s
  | _ => s

/-- The transmission on lane `k` ends (R122). -/
def endTransmit (k : LaneId) (s : State) : State :=
  match (s.lane k).tx with
  | none => s
  | some t => afterTransmit k t (s.updLane k fun l => { l with tx := none })

/-- LANE_TRANSMIT_END (R122). -/
def execLaneTransmitEnd (k : LaneId) (s : State) : Step := .next (endTransmit k s)

end Sys2Proof.Machine
end

