-- ==== Sys2Proof/Machine/ExecOutbound.lean ====
section
/-! DEFINITION. The commands of the outbound path: INNER_FRAME_ARRIVAL, OUTBOUND_LOOKUP_END, PROTECT_COMPLETION, OUTBOUND_BUFFER_ENTRY
(R46, R58 to R69, R71, R108). -/

namespace Sys2Proof.Machine

/-! ### The port receiver (R58 to R60) -/

/-- A MAC control frame consumed on port `n` (R59): a pause frame sets or ends the hold (R118). -/
def consumeControl (n : PortId) (f : Frame) (s : State) : State :=
  if word16 (innerBytes f) 2 = Config.pauseOpcode then
    let q := (word16 (innerBytes f) 4).toNat
    s.updPort n fun p => { p.count .pauseReceived with hold := if q = 0 then none else some (startTimer s (quantaMicros q)) }
  else s.countPort n .controlDropped

/-- A frame of port `n` handed to the classifier (R46). -/
def classify (n : PortId) (f : Frame) (s : State) : State :=
  s.updPort n fun p => { p with outLine := p.outLine ++ [{ frame := f, stage := .lookup (beginLookup s .outbound n (innerBytes f)) }] }

/-- Tests 2 to 7 of the port receiver (R58, R60). -/
def receiveInner (n : PortId) (f : Frame) (s : State) : State :=
  if !fcsGood f then s.countPort n .badFcs
  else if f.length < Config.innerMin then s.countPort n .undersize
  else if Config.innerMax < f.length then s.countPort n .oversize
  else if isMacControl f then consumeControl n f s
  else if frameDa f = s.ownAddr ∧ hasMarker f = true then
    if malformed f then s.countPort n .malformed
    else if headerChan (headerOf f) = 0 then routeManagement (.port n) f (s.countPort n .toAgent)
    else classify n f s
  else classify n f s

/-- A frame that reaches test 2 counts, and goes on (R58). -/
def arriveInner (n : PortId) (f : Frame) (s : State) : State :=
  settle (receiveInner n f ((s.countPort n .framesReceived).countPort n .octetsReceived f.length))

/-- INNER_FRAME_ARRIVAL (R58). -/
def execInnerFrameArrival (n : PortId) (f : Frame) (beganBlocked : Bool) (s : State) : Step :=
  .next (if blocked s || beganBlocked then s else arriveInner n f s)

/-! ### The end of an outbound lookup (R46, R62) -/

/-- The place in a line of the oldest frame under lookup, whose result is taken next (R13). -/
def lookupIndex (line : List OutItem) : Nat :=
  line.findIdx fun i => match i.stage with
    | .lookup _ => true
    | _ => false

/-- The header of a traffic frame (R66). -/
def trafficHeader (s : State) (c : Chan) (epoch : Byte) (n : Seq) : Header :=
  { control := controlPlain, epoch, chanField := chanFieldOf (roleBit s.role) c, seq := n }

/-- The frame at place `i` of a port's line leaves it. -/
def dropOut (n : PortId) (i : Nat) (s : State) : State := s.updPort n fun p => { p with outLine := p.outLine.eraseIdx i }

/-- The frame at place `i` of a port's line goes on to another stage. -/
def stageOut (n : PortId) (i : Nat) (item : OutItem) (s : State) : State := s.updPort n fun p => { p with outLine := p.outLine.set i item }

/-- What the outbound path does on a lookup's result (R46, R62, R63). -/
def actOutbound (n : PortId) (i : Nat) (f : Frame) (v : Verdict) (s : State) : State :=
  match v with
  | .protect c =>
    match assignSequence c (.port n) s with
    | (.inl ctr, s1) => dropOut n i ((s1.countChan c ctr).countPort n .protectRefused)
    | (.inr (w, epoch), s1) => stageOut n i { frame := f, stage := .protecting w (trafficHeader s c epoch w.seq) } s1
  | .bypass => stageOut n i { frame := f, stage := .bypass } s
  | .blocked => dropOut n i (s.countPort n .bypassBlocked)
  | .discard => dropOut n i (s.countPort n .discarded)
  | .noMatch => dropOut n i (s.countPort n .noMatch)

/-- The oldest lookup of port `n` ends (R13, R40, R46). -/
def endOutboundLookup (n : PortId) (s : State) : State :=
  let i := lookupIndex (s.port n).outLine
  match (s.port n).outLine[i]? with
  | some { frame := f, stage := .lookup r } => settle (actOutbound n i f r.verdict (countHit r s))
  | _ => s

/-- OUTBOUND_LOOKUP_END (R46). -/
def execOutboundLookupEnd (n : PortId) (s : State) : Step := .next (endOutboundLookup n s)

/-! ### Completion of a protect operation (R67, R71) -/

/-- The slot a work record names after one of its protect operations completed (R23, R96). -/
def slotCompleted (w : Work) (s : State) : State :=
  s.updChan w.chan fun ch => ch.setOut w.letter (completeOut (ch.outSlot w.letter))

/-- A traffic frame completes (R67). -/
def completeTraffic (n : PortId) (i : Nat) (f : Frame) (w : Work) (h : Header) (s : State) : State :=
  let s1 := slotCompleted w s
  if protectPasses (s.chan w.chan) w then
    stageOut n i { frame := f, stage := .passed w.chan (sealText w.key w.salt (frameDa f) (frameSa f) h (innerBytes f)) } s1
  else dropOut n i ((s1.countChan w.chan .droppedZeroized).countPort n .protectDropped)

/-- A beacon or test frame completes (R67, R71); a test frame that took a TAG inject has the first bit of its tag inverted (R150). -/
def completeUnit (k : LaneId) (i : Nat) (kind : LinkKind) (w : Work) (h : Header) (addr : Addr) (payload : List Byte) (s : State) : State :=
  let s1 := slotCompleted w s
  if protectPasses (s.chan w.chan) w then
    s1.updLane k fun l => { l with unitLine := l.unitLine.set i (.passed kind (sealLink w.key w.salt addr addr h payload (kind == .test true))) }
  else (s1.countChan w.chan .droppedZeroized).updLane k fun l => { l with unitLine := l.unitLine.eraseIdx i }

/-- A reply or notice completes (R67, R71, R161). -/
def completeHand (hand : Hand) (w : Work) (h : Header) (da sa : Addr) (msg : List Byte) (s : State) : State :=
  let s1 := slotCompleted w s
  if protectPasses (s.chan w.chan) w then
    let env := sealText w.key w.salt da sa h msg
    s1.updAgent fun a => { a with hand := some { hand with stage := .ready env (some (env.length - 28)) } }
  else loseHand hand.kind (s1.countChan w.chan .droppedZeroized)

/-- The protect operation that the command names completes: the frame at place `i` of its source's line (R66, R67, R71). -/
def completeProtect (o : Origin) (i : Nat) (s : State) : State :=
  match o with
  | .port n =>
    match (s.port n).outLine[i]? with
    | some { frame := f, stage := .protecting w h } => settle (completeTraffic n i f w h s)
    | _ => s
  | .unit k =>
    match (s.lane k).unitLine[i]? with
    | some (.protecting kind w h addr payload) => settle (completeUnit k i kind w h addr payload s)
    | _ => s
  | .agent =>
    match s.agent.hand with
    | some hand =>
      match hand.stage with
      | .protecting w h da sa msg => settle (completeHand hand w h da sa msg s)
      | .ready _ _ => s
    | none => s
  | .lane _ => s

/-- PROTECT_COMPLETION (R67). -/
def execProtectCompletion (o : Origin) (i : Nat) (s : State) : Step := .next (completeProtect o i s)

/-! ### Entry to the outbound buffer (R68, R69, R108) -/

/-- A frame requests entry to buffer `n`, with what it counts when it is appended (R68, R69, R108). -/
def requestEntry (n : PortId) (f : BufFrame) (appended : State → State) (s : State) : State :=
  match enterBuffer f (s.port n) with
  | none => s.countPort n .overflow
  | some p => appended (s.updPort n fun _ => p)

/-- A protected frame that enters its buffer is counted (R68). -/
def countProtected (n : PortId) (c : Chan) (len : Nat) (s : State) : State :=
  ((s.countChan c .protectedFrames).countChan c .protectedOctets len).countPort n .protectedSent

/-- The oldest frame of port `n`, when it is resolved, enters its buffer or is tail-dropped (R13, R108). -/
def enterOldest (n : PortId) (s : State) : State :=
  match (s.port n).outLine with
  | { frame := f, stage := .passed c env } :: _ =>
    requestEntry n { isProtected := true, bytes := env } (countProtected n c f.length) (dropOut n 0 s)
  | { frame := f, stage := .bypass } :: _ =>
    requestEntry n { isProtected := false, bytes := f } (fun t => t.countPort n .bypassed) (dropOut n 0 s)
  | _ => s

/-- OUTBOUND_BUFFER_ENTRY (R108). -/
def execOutboundBufferEntry (n : PortId) (s : State) : Step := .next (enterOldest n s)

end Sys2Proof.Machine
end

