-- ==== Sys2Proof/Machine/ExecPort.lean ====
section
/-! DEFINITION. The commands of an inner port: PORT_TRANSMIT_PAUSE to PAUSE_HOLD_EXPIRY (R111 to R118). -/

namespace Sys2Proof.Machine

/-- A pause frame of quanta `q` begins transmission on port `n` (R115, R117). -/
def sendPause (s : State) (q : Nat) (p : Port) : Port :=
  { p with tx := some { bytes := pauseFrame s.ownAddr q, final := false }, pendingPause := .none }

/-- The pending pause frame begins: ON with quanta computed now and the refresh timer started, or OFF (R111 to R113). -/
def beginPauseFrame (n : PortId) (s : State) : State :=
  let q := pauseQuanta (s.port n)
  match (s.port n).pendingPause with
  | .none => s
  | .on => s.updPort n fun p => { (sendPause s q p).count .pauseSent with announced := true, refresh := some (startTimer s (quantaMicros q)) }
  | .off => s.updPort n fun p => { (sendPause s 0 p).count .releaseSent with announced := false }

/-- PORT_TRANSMIT_PAUSE (R111). -/
def execPortTransmitPause (n : PortId) (s : State) : Step :=
  .next (if blocked s || (s.port n).tx.isSome then s else beginPauseFrame n s)

/-- The head frame of delivery queue `n` begins transmission (R117). -/
def beginQueueFrame (n : PortId) (s : State) : State :=
  match (s.port n).queue with
  | [] => s
  | f :: rest => s.updPort n fun p => ({ p with tx := some f, queue := rest }.count .sentFrames).count .sentOctets f.bytes.length

/-- PORT_TRANSMIT_QUEUE_FRAME (R117): an idle transmitter, no pause frame pending and no hold in force. -/
def execPortTransmitQueueFrame (n : PortId) (s : State) : Step :=
  .next (if blocked s || (s.port n).tx.isSome || (s.port n).pendingPause != .none || (s.port n).hold.isSome then s else beginQueueFrame n s)

/-- The transmission on port `n` ends, and with it the wait of a restart for its reply (R117, R169). -/
def endPortTransmit (n : PortId) (s : State) : State :=
  match (s.port n).tx with
  | none => s
  | some f =>
    let s1 := s.updPort n fun p => { p with tx := none }
    if f.final && s1.agent.restart.isSome then coldReset s1 else s1

/-- PORT_TRANSMIT_END (R117). -/
def execPortTransmitEnd (n : PortId) (s : State) : Step := .next (endPortTransmit n s)

/-- The refresh timer of buffer `n` expires (R111, R113). -/
def refreshExpired (p : Port) : Port := if p.inForce then { p with refresh := none, pendingPause := .on } else { p with refresh := none }

/-- PAUSE_REFRESH_EXPIRY (R113). -/
def execPauseRefreshExpiry (n : PortId) (s : State) : Step :=
  .next (if timerDue s.time (s.port n).refresh then s.updPort n refreshExpired else s)

/-- PAUSE_HOLD_EXPIRY (R118). -/
def execPauseHoldExpiry (n : PortId) (s : State) : Step :=
  .next (if timerDue s.time (s.port n).hold then s.updPort n fun p => { p with hold := none } else s)

end Sys2Proof.Machine
end

