-- ==== Sys2Proof/Machine/ExecTimers.lean ====
section
/-! DEFINITION. The commands of rollover and protection timers: GRACE_EXPIRY, SCHEDULE_DUE, WTR_EXPIRY (R100, R103, R134). -/

namespace Sys2Proof.Machine

/-- The grace timer of a FADING slot has run out (R103). -/
def graceDue (s : State) (c : Chan) (x : Letter) : Bool :=
  ((s.chan c).inSlot x).state == .fading && timerDue s.time ((s.chan c).inSlot x).graceTimer

/-- The slot becomes EMPTY and FADED is set (R103). -/
def graceExpired (c : Chan) (x : Letter) (s : State) : State :=
  settle (reportChan c (kindBit .faded) (s.updChan c fun ch => ch.setIn x (emptyIn (ch.inSlot x))))

/-- GRACE_EXPIRY (R103). -/
def execGraceExpiry (c : Chan) (x : Letter) (s : State) : Step := .next (if graceDue s c x then graceExpired c x s else s)

/-- A stored schedule whose time the counter has reached, now or at an earlier count: the due event may come late (R100; log 43). -/
def scheduleReached (s : State) (c : Chan) : Bool :=
  match (s.chan c).schedule with
  | some t => t ≤ s.time
  | none => false

/-- The schedule is removed and its switch is made or lapses (R100, R95). -/
def scheduleFell (c : Chan) (s : State) : State := settle (scheduledSwitch c (s.updChan c fun ch => { ch with schedule := none }))

/-- SCHEDULE_DUE (R100; log 43). -/
def execScheduleDue (c : Chan) (s : State) : Step := .next (if scheduleReached s c then scheduleFell c s else s)

/-- The WTR timer expires: the selected lane's class becomes NONE and the arbiter runs (R134). -/
def wtrExpired (s : State) : State :=
  settle (runArbiter (s.updProt fun p =>
    { p with wtrTimer := none, classes := match p.selection with
      | some n => p.classes.set n .none
      | none => p.classes }))

/-- WTR_EXPIRY (R134). -/
def execWtrExpiry (s : State) : Step := .next (if timerDue s.time s.prot.wtrTimer then wtrExpired s else s)

end Sys2Proof.Machine
end

