-- ==== Sys2Proof/Machine/Dispatch.lean ====
section
/-! DEFINITION. The dispatch: one arm for each command, each one call of its meaning. -/

namespace Sys2Proof.Machine

def exec (i : Instr) (s : State) : Host.Outcome State Fault Refusal :=
  match i with
  | .powerOn pins => Sys2Proof.Machine.execPowerOn pins s
  | .resetNAssert => Sys2Proof.Machine.execResetNAssert s
  | .resetNRelease => Sys2Proof.Machine.execResetNRelease s
  | .selfCheckCompletion cipherOk tablesOk windowsOk => Sys2Proof.Machine.execSelfCheckCompletion cipherOk tablesOk windowsOk s
  | .zeroizeNAssert => Sys2Proof.Machine.execZeroizeNAssert s
  | .zeroizeNRelease => Sys2Proof.Machine.execZeroizeNRelease s
  | .losAssert k => Sys2Proof.Machine.execLosAssert k s
  | .losRelease k => Sys2Proof.Machine.execLosRelease k s
  | .innerFrameArrival n f beganBlocked => Sys2Proof.Machine.execInnerFrameArrival n f beganBlocked s
  | .outboundLookupEnd n => Sys2Proof.Machine.execOutboundLookupEnd n s
  | .protectCompletion o k => Sys2Proof.Machine.execProtectCompletion o k s
  | .outboundBufferEntry n => Sys2Proof.Machine.execOutboundBufferEntry n s
  | .laneFrameArrival k f beganBlocked => Sys2Proof.Machine.execLaneFrameArrival k f beganBlocked s
  | .inboundLookupEnd k => Sys2Proof.Machine.execInboundLookupEnd k s
  | .verifyCompletion p k => Sys2Proof.Machine.execVerifyCompletion p k s
  | .returnCheck k b => Sys2Proof.Machine.execReturnCheck k b s
  | .inboundHandOn p => Sys2Proof.Machine.execInboundHandOn p s
  | .continuityTimerExpiry k => Sys2Proof.Machine.execContinuityTimerExpiry k s
  | .beaconTimerExpiry k => Sys2Proof.Machine.execBeaconTimerExpiry k s
  | .rateTimerExpiry k => Sys2Proof.Machine.execRateTimerExpiry k s
  | .controlQueueOffer k => Sys2Proof.Machine.execControlQueueOffer k s
  | .laneTransmitStart k => Sys2Proof.Machine.execLaneTransmitStart k s
  | .laneTransmitEnd k => Sys2Proof.Machine.execLaneTransmitEnd k s
  | .portTransmitPause n => Sys2Proof.Machine.execPortTransmitPause n s
  | .portTransmitQueueFrame n => Sys2Proof.Machine.execPortTransmitQueueFrame n s
  | .portTransmitEnd n => Sys2Proof.Machine.execPortTransmitEnd n s
  | .pauseRefreshExpiry n => Sys2Proof.Machine.execPauseRefreshExpiry n s
  | .pauseHoldExpiry n => Sys2Proof.Machine.execPauseHoldExpiry n s
  | .graceExpiry c x => Sys2Proof.Machine.execGraceExpiry c x s
  | .scheduleDue c => Sys2Proof.Machine.execScheduleDue c s
  | .wtrExpiry => Sys2Proof.Machine.execWtrExpiry s
  | .holdoffExpiry => Sys2Proof.Machine.execHoldoffExpiry s
  | .runnerTakeRequest count => Sys2Proof.Machine.execRunnerTakeRequest count s
  | .senderSend => Sys2Proof.Machine.execSenderSend s
  | .restartTimeout => Sys2Proof.Machine.execRestartTimeout s
  | .chanOpen ops => Sys2Proof.Machine.execChanOpen ops s
  | .chanSet ops => Sys2Proof.Machine.execChanSet ops s
  | .chanClose ops => Sys2Proof.Machine.execChanClose ops s
  | .chanRead ops => Sys2Proof.Machine.execChanRead ops s
  | .keyStage ops => Sys2Proof.Machine.execKeyStage ops s
  | .keyCommit ops => Sys2Proof.Machine.execKeyCommit ops s
  | .keyErase ops => Sys2Proof.Machine.execKeyErase ops s
  | .switchNow ops => Sys2Proof.Machine.execSwitchNow ops s
  | .switchAt ops => Sys2Proof.Machine.execSwitchAt ops s
  | .switchCancel ops => Sys2Proof.Machine.execSwitchCancel ops s
  | .timeRead ops => Sys2Proof.Machine.execTimeRead ops s
  | .ruleWrite ops => Sys2Proof.Machine.execRuleWrite ops s
  | .rulePatch ops => Sys2Proof.Machine.execRulePatch ops s
  | .ruleClear ops => Sys2Proof.Machine.execRuleClear ops s
  | .ruleRead ops => Sys2Proof.Machine.execRuleRead ops s
  | .ruleMove ops => Sys2Proof.Machine.execRuleMove ops s
  | .ruleMoveCompletion => Sys2Proof.Machine.execRuleMoveCompletion s
  | .tableCommit ops => Sys2Proof.Machine.execTableCommit ops s
  | .tableRevert ops => Sys2Proof.Machine.execTableRevert ops s
  | .portSet ops => Sys2Proof.Machine.execPortSet ops s
  | .laneSet ops => Sys2Proof.Machine.execLaneSet ops s
  | .loopSet ops => Sys2Proof.Machine.execLoopSet ops s
  | .testSet ops => Sys2Proof.Machine.execTestSet ops s
  | .testInject ops => Sys2Proof.Machine.execTestInject ops s
  | .countSweep ops => Sys2Proof.Machine.execCountSweep ops s
  | .portCounts ops => Sys2Proof.Machine.execPortCounts ops s
  | .statusRead ops => Sys2Proof.Machine.execStatusRead ops s
  | .noticeMask ops => Sys2Proof.Machine.execNoticeMask ops s
  | .idRead ops => Sys2Proof.Machine.execIdRead ops s
  | .idBurn ops => Sys2Proof.Machine.execIdBurn ops s
  | .idBurnCompletion => Sys2Proof.Machine.execIdBurnCompletion s
  | .zeroize ops => Sys2Proof.Machine.execZeroize ops s
  | .restart ops => Sys2Proof.Machine.execRestart ops s
  | .timeCounterCount => Sys2Proof.Machine.execTimeCounterCount s

end Sys2Proof.Machine
end

