-- ==== Sys2Proof/Safety.lean ====
section
/-! DEFINITION. The terms the statements are written in: when a directive can run and what its end leaves, what a cold reset leaves, what a MALFORMED
frame is, what a run of the arbiter, a lane's fall and a change of bridging do, where the data of a read directive holds what, and the conditions of a
state that every step keeps. -/

namespace Sys2Proof.Safety
open Sys2Proof.Machine

/-! ### Directives (R158; log 5) -/

/-- A directive can run now: the part is not BLOCKED, no operation is under way, no restart is pending, and no request is in hand, or one whose next
directive is this one, has room in its reply, and need not wait for the time counter (R92, R158, R159, R169; log 38). -/
def Ready (code : Byte) (ops : List Byte) (s : State) : Prop :=
  blocked s = false ∧ opBusy s = false ∧ s.agent.restart = none ∧ timeWaits s = false ∧
  (s.agent.run = none ∨ ∃ r rest, s.agent.run = some r ∧ r.rest = { code, ops } :: rest ∧ budgetOk r.records { code, ops } rest.length = true)

/-- The directive is the last of its request, or stands outside one (R169). -/
def isLast (s : State) : Prop := ∀ r, s.agent.run = some r → r.rest.length = 1

/-- The state with the next directive taken from the request in hand, if there is one. -/
def taken (s : State) : State := s.updAgent fun a => { a with run := a.run.map fun r => { r with rest := r.rest.drop 1 } }

/-- The directive a directive command gives to the runner: its code of 12.4 and its operand bytes (log 5). -/
def directiveOf : Instr → Option (Byte × List Byte)
  | .chanOpen ops => some (0x10, ops) | .chanSet ops => some (0x11, ops) | .chanClose ops => some (0x12, ops) | .chanRead ops => some (0x13, ops)
  | .keyStage ops => some (0x18, ops) | .keyCommit ops => some (0x19, ops) | .keyErase ops => some (0x1A, ops)
  | .switchNow ops => some (0x20, ops) | .switchAt ops => some (0x21, ops) | .switchCancel ops => some (0x22, ops) | .timeRead ops => some (0x23, ops)
  | .ruleWrite ops => some (0x30, ops) | .rulePatch ops => some (0x31, ops) | .ruleClear ops => some (0x32, ops) | .ruleRead ops => some (0x33, ops)
  | .ruleMove ops => some (0x34, ops) | .tableCommit ops => some (0x35, ops) | .tableRevert ops => some (0x36, ops)
  | .portSet ops => some (0x40, ops) | .laneSet ops => some (0x48, ops)
  | .loopSet ops => some (0x50, ops) | .testSet ops => some (0x51, ops) | .testInject ops => some (0x52, ops)
  | .countSweep ops => some (0x60, ops) | .portCounts ops => some (0x61, ops) | .statusRead ops => some (0x62, ops) | .noticeMask ops => some (0x63, ops)
  | .idRead ops => some (0x70, ops) | .idBurn ops => some (0x71, ops) | .zeroize ops => some (0x72, ops) | .restart ops => some (0x73, ops)
  | _ => none

/-- The end of a directive whose effect left the state `t`: its record joins the request in hand or is kept (log 5), and the sender is judged
(R158, R161, R167). -/
def ended (code : Byte) (o : DirOutcome) (data : List Byte) (t : State) : State := settle (endDirective { code, outcome := o, data } t)

/-! ### Cold reset (R169) -/

/-- `t` is what a cold reset with these pins leaves of `s` (R169). -/
def IsCold (pins : Pins) (s t : State) : Prop :=
  t.pins = pins ∧ t.store = s.store ∧ t.pending = s.pending ∧ t.time = 0 ∧ t.burn = none ∧ t.move = none ∧
  t.part = .testing (if pins.resetHigh then some (pins.selftestLong || s.store[4].getLsbD 3) else none) ∧
  (∀ c : Chan, t.chan c = Channel.cold (decide (c.val < 2))) ∧ t.staging = { valid := false, key := 0, salt := 0, epoch := 0 } ∧
  t.active = coldBank ∧ t.shadow = coldBank ∧ t.hits = Vector.replicate 256 0 ∧
  (∀ n, t.port n = Port.cold) ∧ (∀ k : LaneId, t.lane k = Lane.cold (pins.los.getLsbD k.val)) ∧ t.prot = Protection.cold ∧ t.agent = Agent.cold

/-! ### Slots -/

/-- An outbound slot that holds nothing (R24). -/
def OutCleared (o : OutSlot) : Prop :=
  o.state = .empty ∧ o.key = 0 ∧ o.salt = 0 ∧ o.epoch = none ∧ o.next = .absent ∧ o.kcv = none ∧ o.switchTime = none ∧ o.softHit = false

/-- An inbound slot that holds nothing (R24). -/
def InCleared (i : InSlot) : Prop :=
  i.state = .empty ∧ i.key = 0 ∧ i.salt = 0 ∧ i.epoch = none ∧ i.kcv = none ∧ i.top = 0 ∧ i.marks = [] ∧ i.firstVerify = none ∧ i.graceTimer = none

/-- `d` is channel `ch` after every slot became EMPTY and its schedule was removed, all else kept (R24, R37). -/
def Zeroized (ch d : Channel) : Prop :=
  d.isOpen = ch.isOpen ∧ d.config = ch.config ∧ d.counters = ch.counters ∧ d.schedule = none ∧
  ∀ x, OutCleared (d.outSlot x) ∧ (d.outSlot x).load = (ch.outSlot x).load ∧ (d.outSlot x).inFlight = (ch.outSlot x).inFlight ∧
    InCleared (d.inSlot x) ∧ (d.inSlot x).load = (ch.inSlot x).load ∧ (d.inSlot x).inFlight = (ch.inSlot x).inFlight

/-- `d` is channel 0 record `ch` after its load from the store of `s`: outbound A LIVE and inbound A PENDING under the management key with epoch 0,
each load count one higher, the rest kept (R171, R106). -/
def Loaded0 (s : State) (ch d : Channel) : Prop :=
  d = { ch with
    outA := { state := .live, key := storeKey s, salt := storeSalt s, epoch := some 0, next := .seq 1, load := ch.outA.load + 1,
              inFlight := ch.outA.inFlight, kcv := some (kcvOf (storeKey s)), switchTime := some s.time, softHit := false }
    inA := { state := .pending, key := storeKey s, salt := storeSalt s, epoch := some 0, load := ch.inA.load + 1, inFlight := ch.inA.inFlight,
             kcv := some (kcvOf (storeKey s)), top := 0, marks := [], firstVerify := none, graceTimer := none } }

/-! ### Two states that differ in keys alone -/

/-- The two records differ at most in the keys and salts of their slots. -/
def SameButSlotKeys (ch d : Channel) : Prop :=
  d = { ch with
    outA := { ch.outA with key := d.outA.key, salt := d.outA.salt }
    outB := { ch.outB with key := d.outB.key, salt := d.outB.salt }
    inA := { ch.inA with key := d.inA.key, salt := d.inA.salt }
    inB := { ch.inB with key := d.inB.key, salt := d.inB.salt } }

/-- The two states differ at most in the keys and salts of the slots and of the staging buffer (R21, R22, R25). -/
def SameButKeys (s t : State) : Prop :=
  (∀ c, SameButSlotKeys (s.chan c) (t.chan c)) ∧
  t = { s with channels := t.channels, staging := { s.staging with key := t.staging.key, salt := t.staging.salt } }

/-! ### Hits (R40, R44) -/

/-- From `s` to `t` the hit of an ended lookup is counted, if it has one and began on the bank that is still ACTIVE (R40, R44). -/
def HitCounted (r : Lookup) (s t : State) : Prop :=
  (∀ i : Fin 256, r.hit = some i → r.gen = s.bankGen → t = { s with hits := s.hits.set i (addCounter s.hits[i] 1) }) ∧
  (r.hit = none ∨ r.gen ≠ s.bankGen → t = s)

/-! ### Lookups in order (R44) -/

/-- The count of commits at which the lookup of an inbound frame began, while it is under one. -/
def lookupGen : InItem → Option Nat
  | .lookup _ _ r => some r.gen
  | .checking _ _ _ _ _ r => some r.gen
  | _ => none

/-- A lookup of the frame may still begin: it waits for one, or is a traffic frame in verification. -/
def mayLookUp : InItem → Bool
  | .clear _ _ => true
  | .recovered _ _ _ _ _ => true
  | .verifying w _ _ _ => 2 ≤ w.chan.val
  | _ => false

/-- Of two frames of a line the later is under no lookup while one of the earlier may still begin, nor under one that began on an older bank (R44). -/
def JudgedInOrder (a b : InItem) : Prop := ∀ h, lookupGen b = some h → mayLookUp a = false ∧ ∀ g, lookupGen a = some g → g ≤ h

/-- The lookups of an inbound line are in the order of its frames, and none began on a bank later than `now` (R44). -/
def LineInOrder (now : Nat) (l : List InItem) : Prop := l.Pairwise JudgedInOrder ∧ ∀ a ∈ l, ∀ g, lookupGen a = some g → g ≤ now

/-- The lookups of each lane and of each inner port are in the order of their frames: no frame judged on a new bank comes before one of its source
judged on the old (R44). -/
def LookupsInOrder (s : State) : Prop :=
  (∀ k, LineInOrder s.bankGen (s.lane k).inLine) ∧
  ∀ n, (s.port n).outLine.Pairwise (fun a b => ∀ q r, a.stage = .lookup q → b.stage = .lookup r → q.gen ≤ r.gen) ∧
    ∀ a ∈ (s.port n).outLine, ∀ r, a.stage = .lookup r → r.gen ≤ s.bankGen

/-! ### The envelope header (R3, R4, R6, R7) -/

/-- A frame that carries the marker is MALFORMED, by its bytes where 12.1 has them: another version than 1, a reserved bit of the control byte or of the
channel field, flags that its channel does not accept, sequence 0, or fewer bytes than 46, or than 30 with CLEAR set (R3, R4, R6, R7). -/
def Malformed (f : Frame) : Prop :=
  ∃ (control : Byte) (field : BitVec 16) (chan : Nat) (clear beacon test : Bool),
    control = f.getD 14 0 ∧ field.toNat = numAt f 16 2 ∧ chan = field.toNat % 1024 ∧
    clear = control.getLsbD 5 ∧ beacon = control.getLsbD 4 ∧ test = control.getLsbD 3 ∧
    (control.toNat / 64 ≠ 1 ∨ control.toNat % 8 ≠ 0 ∨ (∃ i, 10 ≤ i ∧ i ≤ 14 ∧ field.getLsbD i = true) ∨
     chan = 0 ∧ (beacon = true ∨ test = true) ∨ chan = 1 ∧ (clear = true ∨ beacon = test) ∨
     2 ≤ chan ∧ (clear = true ∨ beacon = true ∨ test = true) ∨ numAt f 18 6 = 0 ∨ f.length < (if clear then 30 else 46))

/-! ### The intake (R156, R157) -/

/-- From `s` to `t` the intake takes a frame of place `p` and address `sa`: it counts and becomes the notice destination, and its request is queued with
room for it, dropped as malformed, or dropped for lack of room with QUEUE set (R156, R157; log 39). -/
def RequestTaken (p : Place) (sa : Addr) (clear : Bool) (msg : List Byte) (s t : State) : Prop :=
  ∃ s1, s1 = s.updAgent (fun a => { a.count .requestsTaken with dest := some (p, sa) }) ∧
    (parseRequest msg = none → t = s1.countAgent .requestMalformed) ∧
    (∀ id dirs, parseRequest msg = some (id, dirs) → s.agent.queue.length < 8 →
      t = s1.updAgent fun a => { a with queue := a.queue ++ [{ id, place := p, sa, clear, dirs }] }) ∧
    (∀ id dirs, parseRequest msg = some (id, dirs) → 8 ≤ s.agent.queue.length →
      t = s1.updAgent fun a => { a.count .requestOverflow with devices := a.devices ||| kindBit .queue })

/-! ### Protection switching (R131 to R137) -/

/-- A transmitter whose service of buffer `n` moves away: a frame of that buffer in transmission is cut and counted, any other stays (R135). -/
def ServiceCut (n : PortId) (l m : Lane) : Prop :=
  ((∃ bytes p, l.tx = some { bytes, source := .buffer n p }) → m.tx = none ∧ m.ctr .lostOnSwitch = addCounter (l.ctr .lostOnSwitch) 1) ∧
  ((∀ bytes p, l.tx ≠ some { bytes, source := .buffer n p }) → m.tx = l.tx ∧ m.ctr .lostOnSwitch = l.ctr .lostOnSwitch)

/-- A transmitter that keeps its service. -/
def ServiceKept (l m : Lane) : Prop := m.tx = l.tx ∧ m.ctr .lostOnSwitch = l.ctr .lostOnSwitch

/-- From `s` to `t` the bridging changes from `a` to `b`: L4 loses buffer `a`, and lane `b` loses buffer `b` to L4 (R135). -/
def BridgingMoved (a b : Option PortId) (s t : State) : Prop :=
  (a = b → ∀ k, ServiceKept (s.lane k) (t.lane k)) ∧
  (a ≠ b →
    (∀ n, a = some n → ServiceCut n (s.lane 4) (t.lane 4)) ∧ (a = none → ServiceKept (s.lane 4) (t.lane 4)) ∧
    ∀ m : PortId, (b = some m → ServiceCut m (s.lane (laneOfPort m)) (t.lane (laneOfPort m))) ∧
      (b ≠ some m → ServiceKept (s.lane (laneOfPort m)) (t.lane (laneOfPort m))))

/-- From `s` to `t` no lane moves but for a transmission that is cut and counted lost-on-switch (R135). -/
def OnlyLanesCut (s t : State) : Prop :=
  ∀ k, t.lane k = { s.lane k with tx := (t.lane k).tx, counters := (t.lane k).counters } ∧
    ∀ ctr, ctr ≠ .lostOnSwitch → (t.lane k).ctr ctr = (s.lane k).ctr ctr

/-- From `s` to `t` the latched role changes: selection, steering and echo become none, with the cuts for the port bridged under the old role and
PROTECT set, the adoption run becomes none with count 0 and the WTR timer stops; of a lane no more than its transmission and the lost-on-switch counter
moves (R135, R174). -/
def RoleMoved (s t : State) : Prop :=
  BridgingMoved (if s.role = .rack then s.prot.selection else s.prot.echo) none s t ∧ OnlyLanesCut s t ∧
  t.prot = { s.prot with selection := none, steering := none, echo := none, candidate := none, adoptCount := 0, wtrTimer := none } ∧
  t.agent = { s.agent with devices := s.agent.devices ||| kindBit .protect } ∧
  t = { s with role := t.role, ownAddr := t.ownAddr, lanes := t.lanes, prot := t.prot, agent := t.agent }

/-- `c` is the class of working lane `n` on the settings and lane states of `s`, of which the selected lane loses FAIL to WAIT and keeps WAIT
(R132, R134). -/
def ClassJudged (s : State) (n : PortId) (c : ReqClass) : Prop :=
  ∃ failed : Prop,
    (failed ↔ (s.lane (laneOfPort n)).state = .los ∨ (s.lane (laneOfPort n)).state = .dark ∨ s.prot.farFail.getLsbD n.val = true) ∧
    (s.prot.force = some n → c = .force) ∧
    (s.prot.force ≠ some n → failed → c = .fail) ∧
    (s.prot.force ≠ some n → ¬ failed → s.prot.manual = some n → c = .manual) ∧
    (s.prot.force ≠ some n → ¬ failed → s.prot.manual ≠ some n → s.prot.selection ≠ some n → c = .none) ∧
    (s.prot.force ≠ some n → ¬ failed → s.prot.manual ≠ some n → s.prot.selection = some n →
      (s.prot.classes[n] = .fail → c = if 0 < s.prot.wtrSetting then .wait else .none) ∧ (s.prot.classes[n] = .wait → c = .wait) ∧
      (s.prot.classes[n] ≠ .fail → s.prot.classes[n] ≠ .wait → c = .none))

/-- `t` is `s` after the classes and the availability were judged afresh and the arbiter ran: the selection is the arbiter's choice; the WTR timer
starts, runs on or stops as R134 states; a change of the selection moves the bridging and sets PROTECT (R131 to R135). -/
def ArbiterRan (s t : State) : Prop :=
  ∃ (available : Bool) (cls : Vector ReqClass 4),
    (available = true ↔
      (s.lane 4).state = .up ∧ s.prot.farFail.getLsbD 4 = false ∧ (s.lane 4).loopMode = .none ∧ s.prot.lockout = false) ∧
    (∀ n : PortId, ClassJudged s n cls[n]) ∧ t.prot.selection = arbiter available cls s.prot.selection ∧
    (∀ n : PortId, t.prot.classes[n] =
      if t.prot.selection ≠ s.prot.selection ∧ s.prot.selection = some n ∧ cls[n] = .wait then .none else cls[n]) ∧
    (∀ n : PortId, s.prot.selection = some n → t.prot.selection = some n → cls[n] = .wait →
      t.prot.wtrTimer = if s.prot.classes[n] = .wait then s.prot.wtrTimer else some { start := s.time, len := 1000000 * s.prot.wtrSetting }) ∧
    ((∀ n : PortId, s.prot.selection = some n → t.prot.selection = some n → cls[n] ≠ .wait) → t.prot.wtrTimer = none) ∧
    BridgingMoved s.prot.selection t.prot.selection s t ∧
    t.agent = (if t.prot.selection = s.prot.selection then s.agent else { s.agent with devices := s.agent.devices ||| kindBit .protect }) ∧
    OnlyLanesCut s t ∧ t.prot = { s.prot with selection := t.prot.selection, classes := t.prot.classes, wtrTimer := t.prot.wtrTimer } ∧
    t = { s with lanes := t.lanes, prot := t.prot, agent := t.agent }

/-- From `s` to `t` L4 became LOS, DARK or LOOPED: in the RACK role the steering and, L4 no longer available, the selection are none; in the CAMPUS
role the adoption run is none with count 0 and none is adopted; PROTECT is set where one of them changed (R131, R136, R137). -/
def StandbyLost (s t : State) : Prop :=
  (s.role = .rack → t.prot.steering = none ∧ t.prot.selection = none ∧ BridgingMoved s.prot.selection none s t ∧
    (s.prot.steering ≠ none ∨ s.prot.selection ≠ none → t.agent.devices.getLsbD 1 = true)) ∧
  (s.role = .campus → t.prot.candidate = none ∧ t.prot.adoptCount = 0 ∧ t.prot.echo = none ∧ BridgingMoved s.prot.echo none s t ∧
    (s.prot.echo = none → t.prot.steering = s.prot.steering) ∧
    (s.prot.echo ≠ none → t.prot.steering = none ∧ t.agent.devices.getLsbD 1 = true))

/-- From `u`, in which lane `k` already holds a new state that is not UP, to `t`: LANE is set; at a RACK part the steering falls when the lane is L4, with
PROTECT set, and the arbiter runs; at a CAMPUS part nothing more comes of a working lane, and L4 is lost (R127, R131, R132, R136, R137, R140). -/
def LaneMoved (k : LaneId) (u t : State) : Prop :=
  ∃ v, v = { u with
      prot := { u.prot with steering := if k = 4 ∧ u.role = .rack then none else u.prot.steering }
      agent := { u.agent with devices := u.agent.devices ||| kindBit .lane |||
        (if k = 4 ∧ u.role = .rack ∧ u.prot.steering ≠ none then kindBit .protect else 0) } } ∧
    (u.role = .rack → ArbiterRan v t) ∧ (u.role = .campus → k ≠ 4 → t = v) ∧
    (u.role = .campus → k = 4 → StandbyLost v t ∧ OnlyLanesCut v t ∧
      t.prot = { v.prot with steering := t.prot.steering, echo := t.prot.echo, candidate := t.prot.candidate, adoptCount := t.prot.adoptCount } ∧
      t.agent = { v.agent with devices := t.agent.devices } ∧ t = { v with lanes := t.lanes, prot := t.prot, agent := t.agent })

/-- In the RACK role the arbiter ran from `s` to `t`; the CAMPUS role does not arbitrate (R133, R137). -/
def ArbiterJudged (s t : State) : Prop := (s.role = .rack → ArbiterRan s t) ∧ (s.role = .campus → t = s)

/-! ### A verified beacon (R126 to R128, R131, R145, R148) -/

/-- From `s` to `t` the monitor of lane `k` takes a verified beacon: the continuity timer restarts and the peer run moves; a lane that becomes LOOPED
falls as `LaneMoved` says, and one that becomes UP sets LANE and runs the arbiter of a RACK part (R127, R128, R131, R132, R140). -/
def MonitorTook (k : LaneId) (own : Bool) (s t : State) : Prop :=
  ∃ u, u = s.updLane k (fun l =>
      { l with continuity := some { start := s.time, len := 350 * s.prot.interval }, peerRun := if own then 0 else min 3 (l.peerRun + 1) }) ∧
    (own = true → (s.lane k).state = .looped → t = u) ∧
    (own = true → (s.lane k).state ≠ .looped → LaneMoved k (u.updLane k fun l => { l with state := .looped }) t) ∧
    (own = false → (s.lane k).peerRun < 2 ∨ (s.lane k).state = .up → t = u) ∧
    (own = false → 2 ≤ (s.lane k).peerRun → (s.lane k).state ≠ .up → ArbiterJudged
      ((u.updLane k fun l => { l with state := .up }).updAgent fun a => { a with devices := a.devices ||| kindBit .lane }) t)

/-- From `s` to `t` the loop control of lane `k` takes a verified beacon: the loop run and the loop mode move, the return queue is discarded and counted
when LINE loopback ends; a change of the mode sets LOOP and, on L4, runs the arbiter of a RACK part (R131, R145, R148). -/
def LoopTook (k : LaneId) (s t : State) : Prop :=
  ∃ y z : State, ∃ ends : Bool, ends = decide ((s.lane k).loopMode = .line ∧ (t.lane k).loopMode = .none) ∧
    y = s.updLane k (fun l => { l.count .loopOverrun (if ends then l.returnQueue.length else 0) with
      loopRun := (t.lane k).loopRun, loopMode := (t.lane k).loopMode, returnQueue := if ends then [] else l.returnQueue }) ∧
    ((t.lane k).loopMode = (s.lane k).loopMode → t = y) ∧
    ((t.lane k).loopMode ≠ (s.lane k).loopMode → (k = 4 → ArbiterJudged y z) ∧ (k ≠ 4 → z = y) ∧
      t = z.updAgent fun a => { a with devices := a.devices ||| kindBit .loop })

/-- From `s` to `t` the controller's arbitration takes a peer-role beacon: another far-fail set becomes the far-fail set and runs the arbiter of a RACK
part, the same one changes nothing (R131, R132). -/
def FarFailTook (far : BitVec 5) (s t : State) : Prop :=
  (far = s.prot.farFail → t = s) ∧ (far ≠ s.prot.farFail → ArbiterJudged { s with prot := { s.prot with farFail := far } } t)

/-! ### Layouts of data (12.4.3) -/

/-- A field of `n` bytes at an offset holds a number, high byte first. -/
def FieldAt (d : List Byte) (off n v : Nat) : Prop := slice d off n = beBytes n v

/-- A field of 8 bytes at an offset holds a time, or all ones for none (R177). -/
def TimeAt (d : List Byte) (off : Nat) (t : Option Time) : Prop :=
  (∀ v, t = some v → FieldAt d off 8 v.toNat) ∧ (t = none → slice d off 8 = List.replicate 8 0xFF)

/-- A byte at an offset holds a port or lane number, or 0xFF for none (R177). -/
def PortAt (d : List Byte) (off : Nat) (p : Option PortId) : Prop := FieldAt d off 1 ((p.map (·.val)).getD 0xFF)

/-- `v` is a number of microseconds in whole units of `unit`, rounded up. -/
def RoundedUp (unit micros v : Nat) : Prop := micros ≤ unit * v ∧ unit * v < micros + unit

/-- An outbound slot at an offset of CHAN-READ's data (12.4.3). -/
def OutSlotAt (d : List Byte) (off : Nat) (o : OutSlot) : Prop :=
  FieldAt d off 1 (match o.state with
    | .empty => 0
    | .loaded => 1
    | .live => 2
    | .exhausted => 3
    | .draining => 4) ∧
  FieldAt d (off + 1) 1 ((o.epoch.map (·.toNat)).getD 0) ∧ FieldAt d (off + 2) 3 ((o.kcv.map (·.toNat)).getD 0) ∧
  (∀ n, o.next = .seq n → FieldAt d (off + 5) 6 n.toNat) ∧ ((∀ n, o.next ≠ .seq n) → FieldAt d (off + 5) 6 0) ∧
  TimeAt d (off + 11) o.switchTime ∧ FieldAt d (off + 19) 4 o.load.toNat ∧ FieldAt d (off + 23) 4 o.inFlight

/-- An inbound slot at an offset of CHAN-READ's data, read at `now` (12.4.3, R34). -/
def InSlotAt (now : Time) (d : List Byte) (off : Nat) (i : InSlot) : Prop :=
  FieldAt d off 1 (match i.state with
    | .empty => 0
    | .pending => 1
    | .current => 2
    | .fading => 3) ∧
  FieldAt d (off + 1) 1 ((i.epoch.map (·.toNat)).getD 0) ∧ FieldAt d (off + 2) 3 ((i.kcv.map (·.toNat)).getD 0) ∧
  FieldAt d (off + 5) 6 i.top ∧ FieldAt d (off + 11) 4 i.marks.length ∧ TimeAt d (off + 15) i.firstVerify ∧
  (i.state ≠ .fading → FieldAt d (off + 23) 2 0) ∧
  (∀ r, i.state = .fading → i.graceTimer = some r → ∃ v, RoundedUp 1000 (r.len - (now - r.start).toNat) v ∧ FieldAt d (off + 23) 2 v) ∧
  FieldAt d (off + 25) 4 i.load.toNat ∧ FieldAt d (off + 29) 4 i.inFlight

/-- The code of a loop field (12.2). -/
def loopCode : LoopField → Nat
  | .none => 0
  | .request => 1
  | .release => 2

/-- The code of a lane condition (12.2). -/
def conditionCode : LaneState → Nat
  | .up => 0
  | .los => 1
  | .dark => 2
  | .looped => 3

/-- A lane at an offset of STATUS-READ's data (12.4.3). -/
def LaneAt (d : List Byte) (off : Nat) (l : Lane) : Prop :=
  FieldAt d off 1 (conditionCode l.state) ∧ FieldAt d (off + 1) 1 l.peerRun ∧
  FieldAt d (off + 2) 1 ((l.peerReport.map fun r => conditionCode r.1).getD 0xFF) ∧ TimeAt d (off + 3) (l.peerReport.map (·.2)) ∧
  FieldAt d (off + 11) 1 (match l.loopMode with
    | .none => 0
    | .line => 1
    | .cipher => 2) ∧
  FieldAt d (off + 12) 1 (loopCode l.loopField) ∧ FieldAt d (off + 13) 1 l.autoAccept.toNat ∧ FieldAt d (off + 14) 1 l.persistence ∧
  FieldAt d (off + 15) 1 ((l.loopRun.map fun r => loopCode r.1).getD 0) ∧ TimeAt d (off + 16) (l.loopRun.map (·.2)) ∧
  FieldAt d (off + 24) 1 l.genOn.toNat ∧ FieldAt d (off + 25) 4 l.rate ∧ FieldAt d (off + 29) 2 l.innerLen ∧
  FieldAt d (off + 31) 1 l.locked.toNat ∧ FieldAt d (off + 32) 1 l.goodRun ∧ FieldAt d (off + 33) 1 (l.judged.count false)

/-! ### Conditions that every step keeps -/

/-- The slot is LIVE or EXHAUSTED (R93). -/
def inService (o : OutSlot) : Prop := o.state = .live ∨ o.state = .exhausted

/-- Every slot of the record is EMPTY. -/
def SlotsEmpty (ch : Channel) : Prop := ∀ x, (ch.outSlot x).state = .empty ∧ (ch.inSlot x).state = .empty

/-- At most one outbound slot is LIVE or EXHAUSTED (R94), at most one inbound slot is CURRENT and a slot is FADING only beside a CURRENT one (R102),
and two inbound slots that are not EMPTY hold different epochs (R28). -/
def RolloverOk (ch : Channel) : Prop :=
  ¬ (inService ch.outA ∧ inService ch.outB) ∧ ¬ (ch.inA.state = .current ∧ ch.inB.state = .current) ∧
  (∀ x, (ch.inSlot x).state = .fading → (ch.inSlot x.other).state = .current) ∧
  (ch.inA.state ≠ .empty → ch.inB.state ≠ .empty → ch.inA.epoch ≠ ch.inB.epoch)

/-- The rollover condition of every channel; channel 0 waits without keys while the part is BLOCKED or ZEROIZE_N is low (R169, R175). -/
def RolloverInv (s : State) : Prop :=
  (∀ c, RolloverOk (s.chan c)) ∧ (blocked s = true ∨ s.pins.zeroizeHigh = false → SlotsEmpty (s.chan 0))

/-- A window's marks are ascending without repeats and lie within top − W + 1..top (R22, R81). -/
def WindowOk (w : Nat) (i : InSlot) : Prop := i.marks.Pairwise (· < ·) ∧ ∀ m ∈ i.marks, m ≤ i.top ∧ i.top < m + w

/-- The slots of a record: an EMPTY slot holds nothing (R24), a CLOSED channel has no inbound key (R18), every window is in order (R81). -/
def SlotsOk (ch : Channel) : Prop :=
  (∀ x, (ch.outSlot x).state = .empty → OutCleared (ch.outSlot x)) ∧ (∀ x, (ch.inSlot x).state = .empty → InCleared (ch.inSlot x)) ∧
  (ch.isOpen = false → ∀ x, (ch.inSlot x).state = .empty) ∧ ∀ x, WindowOk ch.config.window (ch.inSlot x)

/-- Every record's slots are in order; channel 0 is OPEN (R17). -/
def SlotsInv (s : State) : Prop := (s.chan 0).isOpen = true ∧ ∀ c, SlotsOk (s.chan c)

/-- Every buffer and queue is within its capacity (R107, R116, R123, R143, R157). -/
def CapacityInv (s : State) : Prop :=
  (∀ n, totalBytes ((s.port n).buffer.map (·.bytes)) ≤ 524288 ∧ totalBytes ((s.port n).queue.map (·.bytes)) ≤ 131072) ∧
  (∀ k, totalBytes (s.lane k).returnQueue ≤ 16384 ∧ (s.lane k).control.length ≤ 4 ∧
    ((s.lane k).control.filter (fun f => f.kind == .beacon)).length ≤ 1) ∧
  s.agent.queue.length ≤ 8

end Sys2Proof.Safety
end

