-- ==== Sys2Proof/Certificates/Slice0/Obligations.lean ====
section
/-! DEFINITION. The statements for the provers, by the rules of the manual. `settle` is what every event ends with at the sender (R161, R167; log 23). -/

open Sys2Proof Sys2Proof.Machine Sys2Proof.Safety

/-! ### The step -/

/-- A step runs the command at the front of the queue on the state with the queue's rest. The queue of waiting commands is the model's own (logs 1, 2
and 31). -/
def Obligations.StepRunsFrontCommand : Prop :=
  ∀ (s : State) (c : Instr) (rest : List Instr), s.pending = c :: rest → step s = exec c { s with pending := rest }

/-! ### Start-up, pins and time -/

/-- Power-on, RESET_N going low and the 1 s bound of a RESTART each begin a cold reset, which keeps the identity store and gives every other state its
reset value (R169). The channel table after reset: channels 0 and 1 OPEN, the rest CLOSED, the defaults of R19, every slot EMPTY with load count and
in-flight count 0, no schedule, every counter 0 (R36). The reset values of an entry, an inner port, a lane unit with its loop control and test units, the
protection controller and the agent are spelled one by one (R39, R61, R107, R110, R116, R121, R130, R139, R143, R149, R153, R157, R165 to R167). Pins at
power-on, the address before latching and the waiting commands are the model's choices (logs 10, 11, 32). -/
def Obligations.ColdReset : Prop :=
  ((∀ (pins : Pins) (s : State), ∃ t, exec (.powerOn pins) s = .next t ∧ IsCold pins s t) ∧
   (∀ s : State, s.pins.resetHigh = true → ∃ t, exec .resetNAssert s = .next t ∧ IsCold { s.pins with resetHigh := false } s t) ∧
   (∀ (s : State) (r : Timer), s.agent.restart = some r → r.len ≤ (s.time - r.start).toNat →
     ∃ t, exec .restartTimeout s = .next t ∧ IsCold s.pins s t)) ∧
  (IsCold State.reset.pins State.reset State.reset ∧
   (∀ i : Fin 256, coldBank[i] = { valid := false, direction := .both, ports := 0xF, vlan := .any, etype := none, action := .discard }) ∧
   Port.cold = {
     counters := Vector.replicate 22 0, outLine := [], mgmtLine := [], buffer := [], xoff := 393216, xon := 262144, pauseEnable := true
     inForce := false, announced := false, pendingPause := .none, refresh := none, queue := [], hold := none, tx := none } ∧
   (∀ los, Lane.cold los = {
     counters := Vector.replicate 34 0, state := if los then .los else .dark, peerRun := 0, continuity := none, beaconTimer := none, control := []
     tx := none, peerReport := none, loopMode := .none, loopField := .none, autoAccept := true, persistence := 5, loopRun := none, returnQueue := []
     genOn := false, rate := 1000, innerLen := 64, pattern := 0x7FFFFF, inject := .none, rateTimer := none, locked := false, goodRun := 0, judged := []
     unitLine := [], inLine := [] }) ∧
   Protection.cold = {
     interval := 10, classes := #v[.fail, .fail, .fail, .fail], force := none, manual := none, lockout := false, wtrSetting := 60, wtrTimer := none
     farFail := 0, selection := none, steering := none, echo := none, candidate := none, adoptCount := 0 } ∧
   Agent.cold = {
     queue := [], run := none, reply := none, hand := none, restart := none, devices := 0, fifo := [], masks := 0, holdoff := none, dest := none
     counters := Vector.replicate 9 0 }) ∧
  (∀ c : Chan, (State.reset.chan c).isOpen = decide (c.val < 2) ∧
     (State.reset.chan c).config = { window := 256, softLimit := 2 ^ 47, auto := true, grace := 2000, returnCheck := false } ∧
     (State.reset.chan c).schedule = none ∧ (∀ i : Fin 13, (State.reset.chan c).counters[i] = 0) ∧
     ∀ x, OutCleared ((State.reset.chan c).outSlot x) ∧ ((State.reset.chan c).outSlot x).load = 0 ∧ ((State.reset.chan c).outSlot x).inFlight = 0 ∧
       InCleared ((State.reset.chan c).inSlot x) ∧ ((State.reset.chan c).inSlot x).load = 0 ∧ ((State.reset.chan c).inSlot x).inFlight = 0)


/-- RESET_N going high lets the self-check begin in TESTING, long when the strap or the LONG-CHECK flag says so; nothing else changes (R169, R170). Test
1 is the known-answer test of the cipher core: a protect gives the stored ciphertext and tag, a verify of them succeeds, a verify with one tag bit
inverted fails, and the KCV is the stored one, on a sound core (R16). A failing self-check puts the part in FAILED with the code of the first test that
failed, FAULT_N low, and changes nothing else; test 4 is made on a locked part alone (R170). A passing one latches role and address, opens the part,
starts the beacon timers, and loads channel 0 on a locked part unless ZEROIZE_N is low (R171, R172). What it leaves is then judged by the sender. The
fixed values, the core's soundness and the results of the memory tests are the model's operands (log 22). Timers count whole microseconds (log 8). In
every state the STATUS code is 0 in TESTING, 1 in RUNNING and 7 in UNPROVISIONED-RUNNING, 6 in both while ZEROIZE_N is low, and the failing test's code in
FAILED; FAULT_N is low in FAILED alone, and ports and lanes are BLOCKED in TESTING and FAILED alone (R169). -/
def Obligations.SelfCheck : Prop :=
  (∀ s : State,
     (∀ check, s.part = .testing check → statusCode s = 0 ∧ faultN s = true ∧ blocked s = true) ∧
     (s.part = .running → statusCode s = (if s.pins.zeroizeHigh then 1 else 6) ∧ faultN s = true ∧ blocked s = false) ∧
     (∀ code, s.part = .failed code → statusCode s = code ∧ faultN s = false ∧ blocked s = true) ∧
     (s.part = .unprovisioned → statusCode s = (if s.pins.zeroizeHigh then 7 else 6) ∧ faultN s = true ∧ blocked s = false)) ∧
  (∀ s : State, s.pins.resetHigh = false → s.part = .testing none →
     exec .resetNRelease s = .next { s with
       pins := { s.pins with resetHigh := true }
       part := .testing (some (s.pins.selftestLong || s.store[4].getLsbD 3)) }) ∧
  (protectText katKey katNonce [] katText = katSealed ∧ verifyText katKey katNonce [] katSealed.1 katSealed.2 = some katText ∧
    verifyText katKey katNonce [] katSealed.1 (invertTag katSealed.2) = none ∧ kcvOf katKey = 0xDC95C0 ∧
    ∀ sound, knownAnswerTest sound = sound) ∧
  (∀ (cipherOk tablesOk windowsOk long : Bool) (s : State) (code : Nat), s.part = .testing (some long) →
     (cipherOk = false ∧ code = 2 ∨
      cipherOk = true ∧ tablesOk = false ∧ code = 3 ∨
      cipherOk = true ∧ tablesOk = true ∧ windowsOk = false ∧ code = 4 ∨
      cipherOk = true ∧ tablesOk = true ∧ windowsOk = true ∧ s.store[4].getLsbD 0 = true ∧
        (s.store.toList.foldl (fun a w => a + w.toNat) 0) % 65536 ≠ 0 ∧ code = 5) →
     ∃ t, exec (.selfCheckCompletion cipherOk tablesOk windowsOk) s = .next t ∧ t = { s with part := .failed code } ∧ faultN t = false ∧
       statusCode t = code ∧ blocked t = true) ∧
  ∀ (long : Bool) (s : State), s.part = .testing (some long) →
    (s.store[4].getLsbD 0 = true → (s.store.toList.foldl (fun a w => a + w.toNat) 0) % 65536 = 0) →
    ∃ t, exec (.selfCheckCompletion true true true) s = .next (settle t) ∧
      t.part = (if s.store[4].getLsbD 0 then PartState.running else .unprovisioned) ∧
      t.role = (if s.store[4].getLsbD 1 then Role.campus else .rack) ∧
      t.ownAddr.toNat = 0x02 * 2 ^ 40 + (s.store[1].toNat % 256) * 2 ^ 32 + s.store[2].toNat * 2 ^ 16 + s.store[3].toNat ∧
      (∀ k, (t.lane k).beaconTimer = some { start := s.time, len := 100 * s.prot.interval } ∧
        ((s.lane k).genOn = true → (t.lane k).rateTimer = some { start := s.time, len := 1000000 / (s.lane k).rate }) ∧
        ((s.lane k).genOn = false → (t.lane k).rateTimer = (s.lane k).rateTimer) ∧
        t.lane k = { s.lane k with beaconTimer := (t.lane k).beaconTimer, rateTimer := (t.lane k).rateTimer }) ∧
      (∀ c : Chan, c ≠ 0 → t.chan c = s.chan c) ∧
      (s.store[4].getLsbD 0 = true ∧ s.pins.zeroizeHigh = true → Loaded0 s (s.chan 0) (t.chan 0)) ∧
      (s.store[4].getLsbD 0 = false ∨ s.pins.zeroizeHigh = false → t.chan 0 = s.chan 0) ∧
      t = { s with part := t.part, role := t.role, ownAddr := t.ownAddr, lanes := t.lanes, channels := t.channels }

/-- ZEROIZE_N going low empties every slot, removes every schedule and empties the staging buffer, in any part state, and leaves all else: the open or
closed state, config, counters, load counts and in-flight counts of the channels and everything outside the channel table (R37, R175). ZEROIZE_N going
high loads channel 0 on a locked part that is not BLOCKED, and loads nothing otherwise (R175). -/
def Obligations.ZeroizePin : Prop :=
  (∀ s : State, s.pins.zeroizeHigh = true →
     ∃ t, exec .zeroizeNAssert s = .next t ∧ (∀ c, Zeroized (s.chan c) (t.chan c)) ∧
       t.staging = { valid := false, key := 0, salt := 0, epoch := 0 } ∧
       t = { s with pins := { s.pins with zeroizeHigh := false }, channels := t.channels, staging := t.staging }) ∧
  (∀ s : State, s.pins.zeroizeHigh = false →
     ∃ t, exec .zeroizeNRelease s = .next (settle t) ∧
       (blocked s = false ∧ s.store[4].getLsbD 0 = true → Loaded0 s (s.chan 0) (t.chan 0)) ∧
       (blocked s = true ∨ s.store[4].getLsbD 0 = false → t.chan 0 = s.chan 0) ∧ (∀ c : Chan, c ≠ 0 → t.chan c = s.chan c) ∧
       t = { s with pins := { s.pins with zeroizeHigh := true }, channels := t.channels })


/-- A LOS pin asserted takes its lane to LOS, stops the continuity timer and sets the peer run and the loop run back; released, it takes a lane in LOS
to DARK with the continuity timer started for 3.5 intervals. A change of the lane state sets LANE and, at a RACK part, runs the arbiter once; on L4 the
steering, or the echo of a CAMPUS part, falls first. The channel table, the rule banks, the ports and the identity store are not touched (R127, R128,
R131, R132, R136, R140, R148). The time counter counts up by one, from 2^64 − 1 to 0, in every part state, and stands while RESET_N is low (R91). Timers
and the counter follow log 8, a lane looped at the release log 30. -/
def Obligations.LosPinAndTime : Prop :=
  ((∀ (k : LaneId) (s : State), s.pins.los.getLsbD k.val = false →
     ∃ t u, exec (.losAssert k) s = .next (settle t) ∧ (∀ j : LaneId, t.pins.los.getLsbD j.val = (decide (j = k) || s.pins.los.getLsbD j.val)) ∧
       u = ({ s with pins := t.pins }).updLane k (fun l => { l with state := .los, continuity := none, peerRun := 0, loopRun := none }) ∧
       ((s.lane k).state = .los → t = u) ∧ ((s.lane k).state ≠ .los → LaneMoved k u t) ∧
       (t.lane k).state = .los ∧ (t.lane k).continuity = none ∧ (t.lane k).peerRun = 0 ∧ (t.lane k).loopRun = none ∧
       t = { s with pins := t.pins, lanes := t.lanes, prot := t.prot, agent := t.agent }) ∧
   (∀ (k : LaneId) (s : State), s.pins.los.getLsbD k.val = true → (s.lane k).state = .los →
     ∃ t u, exec (.losRelease k) s = .next (settle t) ∧ (∀ j : LaneId, t.pins.los.getLsbD j.val = (decide (j ≠ k) && s.pins.los.getLsbD j.val)) ∧
       u = ({ s with pins := t.pins }).updLane k (fun l => { l with state := .dark, continuity := some { start := s.time, len := 350 * s.prot.interval } }) ∧
       LaneMoved k u t ∧ (t.lane k).state = .dark ∧ (t.lane k).continuity = some { start := s.time, len := 350 * s.prot.interval } ∧
       t = { s with pins := t.pins, lanes := t.lanes, prot := t.prot, agent := t.agent })) ∧
  ((∀ s : State, s.pins.resetHigh = true →
     ∃ t, exec .timeCounterCount s = .next t ∧ t.time.toNat = (s.time.toNat + 1) % 2 ^ 64 ∧ t = { s with time := t.time }) ∧
   (∀ s : State, s.pins.resetHigh = false → exec .timeCounterCount s = .next s))


/-! ### The inner port receiver -/

/-- The marker stands in the two bytes after the SA, which are read before the FCS only (R3; log 42), and a frame that carries it is MALFORMED by its
version, its reserved bits, its flags on its channel, sequence 0 or a length below its bound (R7, which R3, R4 and R6 fill in). A MAC control frame holds
type 0x8808 there. A frame of an inner port is sorted by the ordered tests of R58: nothing is counted while the port is blocked or when the arrival began while it was;
the first test that drops the frame counts it, after it counted as received, and nothing else changes. A pause frame of the switch is consumed: it
counts, and sets the hold of the delivery queue to its quanta from now on, or ends it with quanta 0 (R59, R118). The hold counts whole microseconds (log
8). -/
def Obligations.InnerFrameSorted : Prop :=
  (∀ f : Frame, (hasMarker f = true ↔ 18 ≤ f.length ∧ numAt f 12 2 = 0x9A3C) ∧ (malformed f = true ↔ Malformed f) ∧
    (18 ≤ f.length → (isMacControl f = true ↔ numAt f 12 2 = 0x8808))) ∧
  (∀ (n : PortId) (f : Frame) (s : State),
     (∀ b, blocked s = true ∨ b = true → exec (.innerFrameArrival n f b) s = .next s) ∧
     ∀ ctr : PortCtr, blocked s = false →
       (fcsGood f = false ∧ ctr = .badFcs ∨
        fcsGood f = true ∧ f.length < 64 ∧ ctr = .undersize ∨
        fcsGood f = true ∧ 9216 < f.length ∧ ctr = .oversize ∨
        fcsGood f = true ∧ 64 ≤ f.length ∧ f.length ≤ 9216 ∧ isMacControl f = true ∧ word16 (innerBytes f) 2 ≠ 1 ∧ ctr = .controlDropped ∨
        fcsGood f = true ∧ 64 ≤ f.length ∧ f.length ≤ 9216 ∧ frameDa f = s.ownAddr ∧ hasMarker f = true ∧ malformed f = true ∧ ctr = .malformed) →
       exec (.innerFrameArrival n f false) s =
         .next (settle (((s.countPort n .framesReceived).countPort n .octetsReceived f.length).countPort n ctr))) ∧
  (∀ (n : PortId) (f : Frame) (s : State), blocked s = false → fcsGood f = true → 64 ≤ f.length → f.length ≤ 9216 → isMacControl f = true →
     word16 (innerBytes f) 2 = 1 →
     exec (.innerFrameArrival n f false) s = .next (settle (((s.countPort n .framesReceived).countPort n .octetsReceived f.length).updPort n fun p =>
       { p.count .pauseReceived with
         hold := if word16 (innerBytes f) 4 = 0 then none
           else some { start := s.time, len := (word16 (innerBytes f) 4).toNat * 512 / 100000 } })))

/-- Every other frame that passes the tests, but for a management frame addressed to the part, joins its port's outbound order with an outbound lookup
on the bank as it stands (R46, R58, R60). A management frame addressed to the part is counted as such: one with origin bit 1 is no request; a protected
request goes to slot selection on channel 0; a CLEAR request is refused on a locked part, and on an unlocked one it sets the notice destination and is
queued, dropped as malformed, or dropped for lack of room with QUEUE set (R60, R79, R86, R156, R157). That a CLEAR request is taken, and a frame that
is no request counted, at its arrival is the model's choice (log 41). A message is malformed when it holds no directive count (log 39), a count below 1 or above 32, directives as counted that run past its
end, or a nonzero byte after the last; of any other the id and the directives are read, each a code, a 2-byte length and its operands (R157, 12.3). -/
def Obligations.InnerFrameRouted : Prop :=
  (∀ (msg : List Byte) (count : Nat) (pos : Nat → Nat), count = (msg.getD 2 0).toNat → pos 0 = 3 →
    (∀ j, pos (j + 1) = pos j + 3 + numAt msg (pos j + 1) 2) →
    (parseRequest msg = none ↔
      msg.length < 3 ∨ count < 1 ∨ 32 < count ∨ msg.length < pos count ∨ ∃ i b, pos count ≤ i ∧ msg[i]? = some b ∧ b ≠ 0) ∧
    ∀ id dirs, parseRequest msg = some (id, dirs) → id.toNat = numAt msg 0 2 ∧ dirs.length = count ∧
      ∀ j d, dirs[j]? = some d → d.code = msg.getD (pos j) 0 ∧ d.ops = slice msg (pos j + 3) (numAt msg (pos j + 1) 2)) ∧
  (∀ (n : PortId) (f : Frame) (s : State), blocked s = false → fcsGood f = true → 64 ≤ f.length → f.length ≤ 9216 → isMacControl f = false →
    (frameDa f ≠ s.ownAddr ∨ hasMarker f = false ∨ malformed f = false ∧ headerChan (headerOf f) ≠ 0) →
    exec (.innerFrameArrival n f false) s = .next (settle (((s.countPort n .framesReceived).countPort n .octetsReceived f.length).updPort n fun p =>
      { p with outLine := p.outLine ++ [{ frame := f, stage := .lookup (beginLookup s .outbound n (innerBytes f)) }] }))) ∧
  ∀ (n : PortId) (f : Frame) (s : State), blocked s = false → fcsGood f = true → 64 ≤ f.length → f.length ≤ 9216 →
    frameDa f = s.ownAddr → hasMarker f = true → malformed f = false → headerChan (headerOf f) = 0 →
    ∃ s1, s1 = ((s.countPort n .framesReceived).countPort n .octetsReceived f.length).countPort n .toAgent ∧
    (headerOrigin (headerOf f) = true → exec (.innerFrameArrival n f false) s = .next (settle (s1.countAgent .notRequest))) ∧
    (headerOrigin (headerOf f) = false → headerClear (headerOf f) = false →
      exec (.innerFrameArrival n f false) s = .next (settle (selectFrame (.port n) f false none s1))) ∧
    (headerOrigin (headerOf f) = false → headerClear (headerOf f) = true → lockBit s = true →
      exec (.innerFrameArrival n f false) s = .next (settle (s1.countAgent .clearRefused))) ∧
    (headerOrigin (headerOf f) = false → headerClear (headerOf f) = true → lockBit s = false →
      ∃ t, exec (.innerFrameArrival n f false) s = .next (settle t) ∧ RequestTaken (.port n) (frameSa f) true (clearPart f) s1 t)

/-! ### The classifier -/

/-- An entry matches inner bytes at a mask position when it is valid, its direction admits the use, its port mask holds the position, its VLAN match
admits the tag or its absence, and its type match the type (R41, R42). A lookup scans the ACTIVE bank in index order and the first entry that matches
wins; NO-MATCH when none matches. The winning action stands, but for a BYPASS that the NO-BYPASS flag turns (R43, R45). -/
def Obligations.LookupFirstMatchWins : Prop :=
  (∀ (e : Entry) (u : Use) (pos : PortId) (inner : List Byte) (tagged : Prop) (v : BitVec 12) (type : BitVec 16),
    (tagged ↔ word16 inner 0 = 0x8100) → v.toNat = (word16 inner 2).toNat % 4096 → (tagged → type = word16 inner 4) → (¬ tagged → type = word16 inner 0) →
    (entryMatches e u pos inner = true ↔
      e.valid = true ∧ (e.direction = .both ∨ e.direction = .out ∧ u = .outbound ∨ e.direction = .inb ∧ u = .inbound) ∧
      e.ports.getLsbD pos.val = true ∧
      (e.vlan = .any ∨ e.vlan = .untagged ∧ ¬ tagged ∨ ∃ lo hi, e.vlan = .range lo hi ∧ tagged ∧ lo.toNat ≤ v.toNat ∧ v.toNat ≤ hi.toNat) ∧
      (e.etype = none ∨ e.etype = some type))) ∧
  ∀ (s : State) (u : Use) (pos : PortId) (inner : List Byte),
    (∀ i : Fin 256, (beginLookup s u pos inner).hit = some i ↔
      entryMatches s.active[i] u pos inner = true ∧ ∀ j : Fin 256, j < i → entryMatches s.active[j] u pos inner = false) ∧
    ((beginLookup s u pos inner).hit = none ↔ ∀ i : Fin 256, entryMatches s.active[i] u pos inner = false) ∧
    ((beginLookup s u pos inner).hit = none → (beginLookup s u pos inner).verdict = .noMatch) ∧
    ∀ i : Fin 256, (beginLookup s u pos inner).hit = some i → (beginLookup s u pos inner).verdict =
      match s.active[i].action with
      | .protect c => .protect c
      | .discard => .discard
      | .bypass => if s.store[4].getLsbD 2 && !(word16 inner 0 == 0x9A3C && (word16 inner 4).toNat % 1024 == 0) then .blocked else .bypass

/-! ### The outbound path -/

/-- A request for a sequence is answered from the state of the record: refused by a CLOSED channel or one with no slot in service, refused as halted by
an EXHAUSTED slot, and otherwise given the LIVE slot's next sequence. The last sequence of a load leaves the slot EXHAUSTED with HALTED set. The one
that equals the soft limit, the first of its load to do so, sets SOFT and, with AUTO on, switches to a LOADED slot of another epoch; a later one of the
load sets nothing (R62 to R64, R93 to R95). -/
def Obligations.SequenceAnswered : Prop :=
  ∀ (c : Chan) (o : Origin) (s : State), RolloverOk (s.chan c) →
    ((s.chan c).isOpen = false ∨ (∀ x, ¬ inService ((s.chan c).outSlot x)) → assignSequence c o s = (.inl .droppedNoKey, s)) ∧
    (∀ x, (s.chan c).isOpen = true → ((s.chan c).outSlot x).state = .exhausted → assignSequence c o s = (.inl .droppedHalted, s)) ∧
    ∀ x q, (s.chan c).isOpen = true → ((s.chan c).outSlot x).state = .live → ((s.chan c).outSlot x).next = .seq q →
      ∃ t epoch, assignSequence c o s =
        (.inr ({ origin := o, op := .protect, chan := c, letter := x, load := ((s.chan c).outSlot x).load, seq := q,
                 key := ((s.chan c).outSlot x).key, salt := ((s.chan c).outSlot x).salt }, epoch), t) ∧
        (∀ e, ((s.chan c).outSlot x).epoch = some e → epoch = e) ∧ ((t.chan c).outSlot x).inFlight = ((s.chan c).outSlot x).inFlight + 1 ∧
        (∀ d, d ≠ c → t.chan d = s.chan d) ∧ t = { s with channels := t.channels, agent := t.agent } ∧
        t.agent = { s.agent with fifo := t.agent.fifo } ∧
        ∃ last : Bool, last = decide (q.toNat = 2 ^ 48 - 1) ∧
        (q.toNat ≠ (s.chan c).config.softLimit ∨ ((s.chan c).outSlot x).softHit = true →
          (t.chan c).outSlot x = { (s.chan c).outSlot x with
            inFlight := ((s.chan c).outSlot x).inFlight + 1
            next := if last then .spent else .seq (q + 1)
            state := if last then .exhausted else .live } ∧
          t.agent.fifo = if last then addKinds c (kindBit .halted) s.agent.fifo else s.agent.fifo) ∧
        (q.toNat = (s.chan c).config.softLimit → ((s.chan c).outSlot x).softHit = false →
          (s.chan c).config.auto = false ∨ ((s.chan c).outSlot x.other).state ≠ .loaded ∨
            ((s.chan c).outSlot x.other).epoch = ((s.chan c).outSlot x).epoch →
          (t.chan c).outSlot x = { (s.chan c).outSlot x with
            inFlight := ((s.chan c).outSlot x).inFlight + 1
            next := if last then .spent else .seq (q + 1)
            state := if last then .exhausted else .live
            softHit := true } ∧
          t.agent.fifo = addKinds c ((if last then kindBit .halted else 0) ||| kindBit .soft) s.agent.fifo) ∧
        (q.toNat = (s.chan c).config.softLimit → ((s.chan c).outSlot x).softHit = false → (s.chan c).config.auto = true →
          ((s.chan c).outSlot x.other).state = .loaded →
          ((s.chan c).outSlot x.other).epoch ≠ ((s.chan c).outSlot x).epoch →
          (t.chan c).outSlot x = { (s.chan c).outSlot x with
            inFlight := ((s.chan c).outSlot x).inFlight + 1
            next := if last then .spent else .seq (q + 1)
            state := .draining
            softHit := true } ∧
          (t.chan c).outSlot x.other = { (s.chan c).outSlot x.other with state := .live, switchTime := some s.time } ∧
          t.agent.fifo = addKinds c ((if last then kindBit .halted else 0) ||| kindBit .soft ||| kindBit .switched) s.agent.fifo)

/-- The oldest lookup of a port ends. Its winning entry's hit counter goes up by one, saturating, when it began on the bank that is still ACTIVE, and no
hit is counted otherwise. DISCARD, a turned BYPASS and NO-MATCH drop the frame and count it; BYPASS leaves it to wait for the buffer; PROTECT drops it
as refused, or puts it in protection under the sequence it was given, with the channel, the role as origin bit and no flags in its header (R20, R40,
R44, R46, R62, R66). A result is fixed when its lookup begins (log 7). -/
def Obligations.OutboundLookupEnds : Prop :=
  ∀ (n : PortId) (s : State) (pre post : List OutItem) (f : Frame) (r : Lookup),
    (s.port n).outLine = pre ++ { frame := f, stage := .lookup r } :: post → (∀ x ∈ pre, ∀ r', x.stage ≠ .lookup r') →
    HitCounted r s (countHit r s) ∧
    (∀ ctr, (r.verdict = .blocked ∧ ctr = .bypassBlocked ∨ r.verdict = .discard ∧ ctr = .discarded ∨ r.verdict = .noMatch ∧ ctr = .noMatch) →
      exec (.outboundLookupEnd n) s = .next (settle (((countHit r s).countPort n ctr).updPort n fun p => { p with outLine := pre ++ post }))) ∧
    (r.verdict = .bypass → exec (.outboundLookupEnd n) s =
      .next (settle ((countHit r s).updPort n fun p => { p with outLine := pre ++ { frame := f, stage := .bypass } :: post }))) ∧
    (∀ c ctr t, r.verdict = .protect c → assignSequence c (.port n) (countHit r s) = (.inl ctr, t) →
      exec (.outboundLookupEnd n) s =
        .next (settle (((t.countChan c ctr).countPort n .protectRefused).updPort n fun p => { p with outLine := pre ++ post }))) ∧
    ∀ c w epoch t, r.verdict = .protect c → assignSequence c (.port n) (countHit r s) = (.inr (w, epoch), t) →
      exec (.outboundLookupEnd n) s = .next (settle (t.updPort n fun p =>
        { p with outLine := pre ++ ⟨f, .protecting w ⟨0x40, epoch, BitVec.ofNat 16 ((if s.role = .campus then 32768 else 0) + c.val), w.seq⟩⟩ :: post }))

/-- A protect operation of a traffic frame completes: the in-flight count of its slot decrements, and a DRAINING slot left without frames becomes EMPTY;
the frame passes as its envelope frame when the slot still holds the key it was handed, and is dropped as zeroized otherwise (R23, R67, R96). -/
def Obligations.TrafficProtectCompletes : Prop :=
  ∀ (n : PortId) (i : Nat) (s : State) (f : Frame) (w : Work) (h : Header),
    (s.port n).outLine[i]? = some { frame := f, stage := .protecting w h } →
    ∃ t, exec (.protectCompletion (.port n) i) s = .next (settle t) ∧
      (((s.chan w.chan).outSlot w.letter).state = .draining → ((s.chan w.chan).outSlot w.letter).inFlight = 1 →
        OutCleared ((t.chan w.chan).outSlot w.letter) ∧ ((t.chan w.chan).outSlot w.letter).load = ((s.chan w.chan).outSlot w.letter).load ∧
        ((t.chan w.chan).outSlot w.letter).inFlight = 0) ∧
      (((s.chan w.chan).outSlot w.letter).state ≠ .draining ∨ 1 < ((s.chan w.chan).outSlot w.letter).inFlight →
        (t.chan w.chan).outSlot w.letter =
          { (s.chan w.chan).outSlot w.letter with inFlight := ((s.chan w.chan).outSlot w.letter).inFlight - 1 }) ∧
      (((s.chan w.chan).outSlot w.letter).state ≠ .empty ∧ ((s.chan w.chan).outSlot w.letter).load = w.load →
        t.port n = { s.port n with
          outLine := (s.port n).outLine.set i ⟨f, .passed w.chan (sealText w.key w.salt (frameDa f) (frameSa f) h (innerBytes f))⟩ } ∧
        (t.chan w.chan).counters = (s.chan w.chan).counters) ∧
      (((s.chan w.chan).outSlot w.letter).state = .empty ∨ ((s.chan w.chan).outSlot w.letter).load ≠ w.load →
        t.port n = { (s.port n).count .protectDropped with outLine := (s.port n).outLine.eraseIdx i } ∧
        (t.chan w.chan).counters = ((s.chan w.chan).count .droppedZeroized).counters) ∧
      (t.chan w.chan).outSlot w.letter.other = (s.chan w.chan).outSlot w.letter.other ∧
      (∀ x, (t.chan w.chan).inSlot x = (s.chan w.chan).inSlot x) ∧ (∀ d, d ≠ w.chan → t.chan d = s.chan d) ∧
      (∀ m, m ≠ n → t.port m = s.port m) ∧ t = { s with channels := t.channels, ports := t.ports }

/-- A protect operation of a beacon or test frame, or of the frame in the sender's hand, completes: it passes with its tag under the slot that still
holds its key, a test frame that took a TAG inject with the first bit of its tag inverted; otherwise it is dropped and counted, and a reply or notice is
lost (R67, R71, R150, R161). The FCS of a TAG inject is made after the inversion (log 21). The addresses are those the frame was built with, the own
address of that moment (R15; log 33). -/
def Obligations.OwnProtectCompletes : Prop :=
  (∀ (k : LaneId) (i : Nat) (s : State) (kind : LinkKind) (w : Work) (h : Header) (addr : Addr) (payload : List Byte),
    (s.lane k).unitLine[i]? = some (.protecting kind w h addr payload) →
    (protectPasses (s.chan w.chan) w = true → exec (.protectCompletion (.unit k) i) s =
      .next (settle ((s.updChan w.chan fun ch => ch.setOut w.letter (completeOut (ch.outSlot w.letter))).updLane k fun l =>
        { l with unitLine := l.unitLine.set i (.passed kind (sealLink w.key w.salt addr addr h payload (decide (kind = .test true)))) }))) ∧
    (protectPasses (s.chan w.chan) w = false → exec (.protectCompletion (.unit k) i) s =
      .next (settle ((s.updChan w.chan fun ch => (ch.setOut w.letter (completeOut (ch.outSlot w.letter))).count .droppedZeroized).updLane k fun l =>
        { l with unitLine := l.unitLine.eraseIdx i })))) ∧
  ∀ (i : Nat) (s : State) (hand : Hand) (w : Work) (h : Header) (da sa : Addr) (msg : List Byte),
    s.agent.hand = some hand → hand.stage = .protecting w h da sa msg →
    (protectPasses (s.chan w.chan) w = true → exec (.protectCompletion .agent i) s =
      .next (settle ((s.updChan w.chan fun ch => ch.setOut w.letter (completeOut (ch.outSlot w.letter))).updAgent fun a =>
        { a with hand := some { hand with
            stage := .ready (sealText w.key w.salt da sa h msg) (some ((sealText w.key w.salt da sa h msg).length - 28)) } }))) ∧
    (protectPasses (s.chan w.chan) w = false → exec (.protectCompletion .agent i) s =
      .next (settle (loseHand hand.kind
        (s.updChan w.chan fun ch => (ch.setOut w.letter (completeOut (ch.outSlot w.letter))).count .droppedZeroized))))

/-- The oldest frame of a port, once resolved, requests entry to its buffer: a frame that fits in 524,288 bytes is appended, a protected one counting
its channel's protected frames and octets and the port's protected counter, a bypass one the bypassed counter; the pause comes in force at XOFF. A frame
that does not fit is dropped and counted as overflow (R68, R69, R108, R111). The octets are those of the inner frame. -/
def Obligations.BufferEntry : Prop :=
  ∀ (n : PortId) (s : State) (f bytes : Frame) (stage : OutStage) (rest : List OutItem),
    (s.port n).outLine = { frame := f, stage } :: rest → ((∃ c, stage = .passed c bytes) ∨ stage = .bypass ∧ bytes = f) →
    (524288 < bufOccupancy (s.port n) + bytes.length →
      exec (.outboundBufferEntry n) s = .next (s.updPort n fun p => { p.count .overflow with outLine := rest })) ∧
    (bufOccupancy (s.port n) + bytes.length ≤ 524288 →
      ∃ t, exec (.outboundBufferEntry n) s = .next t ∧
        (t.port n).buffer = (s.port n).buffer ++ [{ isProtected := decide (stage ≠ .bypass), bytes }] ∧ (t.port n).outLine = rest ∧
        ((s.port n).pauseEnable = true ∧ (s.port n).inForce = false ∧ (s.port n).xoff ≤ bufOccupancy (s.port n) + bytes.length →
          (t.port n).inForce = true ∧ (t.port n).pendingPause = .on) ∧
        ((s.port n).pauseEnable = false ∨ (s.port n).inForce = true ∨ bufOccupancy (s.port n) + bytes.length < (s.port n).xoff →
          (t.port n).inForce = (s.port n).inForce ∧ (t.port n).pendingPause = (s.port n).pendingPause) ∧
        (t.port n).counters = ((s.port n).count (if stage = .bypass then .bypassed else .protectedSent)).counters ∧
        t.port n = { s.port n with buffer := (t.port n).buffer, outLine := rest, inForce := (t.port n).inForce,
                                   pendingPause := (t.port n).pendingPause, counters := (t.port n).counters } ∧
        (∀ m, m ≠ n → t.port m = s.port m) ∧
        (stage = .bypass → t.channels = s.channels) ∧
        (∀ c, stage = .passed c bytes →
          t.chan c = ((s.chan c).count .protectedFrames).count .protectedOctets f.length ∧ ∀ d, d ≠ c → t.chan d = s.chan d) ∧
        t = { s with ports := t.ports, channels := t.channels })

/-! ### The lane receiver -/

/-- The marker is read after the SA and before the FCS (R3; log 42), and a frame that carries it is MALFORMED by its version, its reserved bits, its flags
on its channel, sequence 0 or a length below its bound (R4, R6, R7). A frame that a lane receiver drops by the ordered tests of R72, outside loopback: blocked frames count nothing, any other counts as received and in
the counter of the test that drops it; a clear frame that the steering does not take is unselected (R72, R73, R76, R77). A lane in CIPHER loopback
counts what it receives and discards it. One in LINE loopback returns every frame with a good FCS that fits in the 16,384 bytes of its return queue, and
counts an overrun otherwise; a returned channel 1 frame that is neither too long nor malformed also goes on to slot selection, and no other returned
frame goes on (R74, R75, R145, R146). A frame that overruns goes no further (log 14). -/
def Obligations.LaneFrameSorted : Prop :=
  (∀ f : Frame, (hasMarker f = true ↔ 18 ≤ f.length ∧ f.getD 12 0 = 0x9A ∧ f.getD 13 0 = 0x3C) ∧ (malformed f = true ↔ Malformed f)) ∧
  (∀ (k : LaneId) (f : Frame) (s : State),
     (∀ b, blocked s = true ∨ b = true → exec (.laneFrameArrival k f b) s = .next s) ∧
     ∀ ctr : LaneCtr, blocked s = false → (s.lane k).loopMode = .none →
       (fcsGood f = false ∧ ctr = .badFcs ∨
        fcsGood f = true ∧ hasMarker f = false ∧ f.length < 64 ∧ ctr = .undersize ∨
        fcsGood f = true ∧ hasMarker f = false ∧ 9216 < f.length ∧ ctr = .oversize ∨
        fcsGood f = true ∧ hasMarker f = false ∧ 64 ≤ f.length ∧ f.length ≤ 9216 ∧ isMacControl f = true ∧ ctr = .controlDropped ∨
        fcsGood f = true ∧ hasMarker f = false ∧ 64 ≤ f.length ∧ f.length ≤ 9216 ∧ isMacControl f = false ∧ boundPort s k = none ∧ ctr = .unselected ∨
        fcsGood f = true ∧ hasMarker f = true ∧ 9244 < f.length ∧ ctr = .oversize ∨
        fcsGood f = true ∧ hasMarker f = true ∧ f.length ≤ 9244 ∧ malformed f = true ∧ ctr = .malformed) →
       exec (.laneFrameArrival k f false) s =
         .next (settle (((s.countLane k .framesReceived).countLane k .octetsReceived f.length).countLane k ctr))) ∧
  (∀ (k : LaneId) (f : Frame) (s : State), blocked s = false →
     ∃ s1, s1 = (s.countLane k .framesReceived).countLane k .octetsReceived f.length ∧
     ((s.lane k).loopMode = .cipher → exec (.laneFrameArrival k f false) s = .next (settle s1)) ∧
     ((s.lane k).loopMode = .line → fcsGood f = false → exec (.laneFrameArrival k f false) s = .next (settle (s1.countLane k .badFcs))) ∧
     ((s.lane k).loopMode = .line → fcsGood f = true → 16384 < totalBytes (s.lane k).returnQueue + f.length →
       exec (.laneFrameArrival k f false) s = .next (settle (s1.countLane k .loopOverrun))) ∧
     ((s.lane k).loopMode = .line → fcsGood f = true → totalBytes (s.lane k).returnQueue + f.length ≤ 16384 →
       hasMarker f = false ∨ (innerBytes f).length < 6 ∨ headerChan (headerOf f) ≠ 1 →
       exec (.laneFrameArrival k f false) s = .next (settle (s1.updLane k fun l => { l with returnQueue := l.returnQueue ++ [f] }))) ∧
     ((s.lane k).loopMode = .line → fcsGood f = true → totalBytes (s.lane k).returnQueue + f.length ≤ 16384 →
       hasMarker f = true → 6 ≤ (innerBytes f).length → headerChan (headerOf f) = 1 →
       ∃ s2, s2 = s1.updLane k (fun l => { l with returnQueue := l.returnQueue ++ [f] }) ∧
       (9244 < f.length → exec (.laneFrameArrival k f false) s = .next (settle (s2.countLane k .oversize))) ∧
       (f.length ≤ 9244 → malformed f = true → exec (.laneFrameArrival k f false) s = .next (settle (s2.countLane k .malformed))) ∧
       (f.length ≤ 9244 → malformed f = false → exec (.laneFrameArrival k f false) s =
         .next (settle (selectFrame (.lane k) f (decide (headerOrigin (headerOf f) = decide (s.role = .campus))) none s2)))))

/-- A clear frame of a lane that the steering takes joins the lane's order and goes to an inbound lookup for the port it is bound to, which begins in
that order: the lane's own port, unless that is steered to L4, or on L4 the port that is steered to it (R44, R47, R76, R77). That an earlier traffic frame
in verification holds this lookup back is the model's choice (log 34), as is that a CLEAR request is taken, and a frame to the part that is no request
counted, at its arrival, ahead of earlier frames of its lane (log 41). The fields of a header
stand where 12.1 has them (R4). A well-formed envelope frame of a lane is routed by its channel,
its origin bit and, on channel 0, its DA. Channel 0 to the own address: with origin bit 1 it is no request, a CLEAR request is refused on a locked part
and taken by the intake on an unlocked one, and a protected request goes to slot selection. To another address: foreign frames are dropped and counted,
a management transit frame waits for the port of its lane. Channel 1 goes to slot selection; own-role traffic is dropped and counted, and peer-role
traffic that the steering takes goes to slot selection (R75, R76, R78, R86, R156). -/
def Obligations.LaneFrameRouted : Prop :=
  (∀ f : Frame, 28 ≤ f.length → (headerChan (headerOf f)).val = numAt f 16 2 % 1024 ∧ (headerOrigin (headerOf f) = true ↔ 32768 ≤ numAt f 16 2) ∧
    headerClear (headerOf f) = (f.getD 14 0).getLsbD 5 ∧ headerBeacon (headerOf f) = (f.getD 14 0).getLsbD 4 ∧
    headerTest (headerOf f) = (f.getD 14 0).getLsbD 3 ∧ (headerOf f).epoch = f.getD 15 0 ∧ (headerOf f).seq.toNat = numAt f 18 6) ∧
  (∀ (k : LaneId) (n : PortId) (f : Frame) (s : State), blocked s = false → (s.lane k).loopMode = .none → fcsGood f = true → hasMarker f = false →
     64 ≤ f.length → f.length ≤ 9216 → isMacControl f = false →
     (k.val = n.val ∧ s.prot.steering ≠ some n ∨ k = 4 ∧ s.prot.steering = some n) →
     exec (.laneFrameArrival k f false) s = .next (settle (((s.countLane k .framesReceived).countLane k .octetsReceived f.length).updLane k fun l =>
       { l with inLine := beginLookups s (l.inLine ++ [.clear f n]) }))) ∧
  (∀ (k : LaneId) (f : Frame) (s : State), blocked s = false → (s.lane k).loopMode = .none → fcsGood f = true → hasMarker f = true →
     f.length ≤ 9244 → malformed f = false →
     ∃ s1 c own, s1 = (s.countLane k .framesReceived).countLane k .octetsReceived f.length ∧ c = headerChan (headerOf f) ∧
     own = decide (headerOrigin (headerOf f) = decide (s.role = .campus)) ∧
     (c = 0 → frameDa f ≠ s.ownAddr → headerOrigin (headerOf f) = false →
       exec (.laneFrameArrival k f false) s = .next (settle (s1.countLane k .foreign))) ∧
     (∀ n : PortId, c = 0 → frameDa f ≠ s.ownAddr → headerOrigin (headerOf f) = true → (k.val = n.val ∨ k = 4 ∧ s.prot.steering = some n) →
       exec (.laneFrameArrival k f false) s =
         .next (settle (s1.updLane k fun l => { l with inLine := l.inLine ++ [.ready (.transit f n)] }))) ∧
     (c = 0 → frameDa f ≠ s.ownAddr → headerOrigin (headerOf f) = true → k = 4 → s.prot.steering = none →
       exec (.laneFrameArrival k f false) s = .next (settle (s1.countLane k .unselected))) ∧
     (c = 0 → frameDa f = s.ownAddr → headerOrigin (headerOf f) = true →
       exec (.laneFrameArrival k f false) s = .next (settle (s1.countAgent .notRequest))) ∧
     (c = 0 → frameDa f = s.ownAddr → headerOrigin (headerOf f) = false → headerClear (headerOf f) = true → lockBit s = true →
       exec (.laneFrameArrival k f false) s = .next (settle (s1.countAgent .clearRefused))) ∧
     (c = 0 → frameDa f = s.ownAddr → headerOrigin (headerOf f) = false → headerClear (headerOf f) = true → lockBit s = false →
       ∃ t, exec (.laneFrameArrival k f false) s = .next (settle t) ∧ RequestTaken (.lane k) (frameSa f) true (clearPart f) s1 t) ∧
     (c = 0 → frameDa f = s.ownAddr → headerOrigin (headerOf f) = false → headerClear (headerOf f) = false →
       exec (.laneFrameArrival k f false) s = .next (settle (selectFrame (.lane k) f false none s1))) ∧
     (c = 1 → exec (.laneFrameArrival k f false) s = .next (settle (selectFrame (.lane k) f own none s1))) ∧
     (2 ≤ c.val → own = true → exec (.laneFrameArrival k f false) s = .next (settle (s1.countLane k .ownDropped))) ∧
     (∀ n, 2 ≤ c.val → own = false → boundPort s k = some n →
       exec (.laneFrameArrival k f false) s = .next (settle (selectFrame (.lane k) f false (some n) s1))) ∧
     (2 ≤ c.val → own = false → boundPort s k = none →
       exec (.laneFrameArrival k f false) s = .next (settle (s1.countLane k .unselected))))

/-- Slot selection and the tentative check: no slot of the header's epoch drops the frame as UNKNOWN-EPOCH, the window test drops a peer-role frame as
LATE or REPLAY, and a frame that passes goes to verification with its slot's key, salt and load count, the slot's in-flight count one higher (R78, R79).
-/
def Obligations.SlotSelection : Prop :=
  ∀ (p : Place) (f : Frame) (own : Bool) (port : Option PortId) (s : State) (c : Chan), c = headerChan (headerOf f) →
    ((∀ x, ((s.chan c).inSlot x).state = .empty ∨ ((s.chan c).inSlot x).epoch ≠ some (headerOf f).epoch) →
      (own = false → selectFrame p f own port s = s.countChan c .unknownEpoch) ∧
      (∀ k, own = true → p = .lane k → selectFrame p f own port s = s.countLane k .ownFailed)) ∧
    ∀ x, RolloverOk (s.chan c) → ((s.chan c).inSlot x).state ≠ .empty → ((s.chan c).inSlot x).epoch = some (headerOf f).epoch →
      ∃ v, v = windowTest (s.chan c).config.window ((s.chan c).inSlot x).top ((s.chan c).inSlot x).marks (headerOf f).seq.toNat ∧
      (own = false → v = .late → selectFrame p f own port s = s.countChan c .late) ∧
      (own = false → v = .replay → selectFrame p f own port s = s.countChan c .replay) ∧
      (own = true ∨ v = .fresh →
        ∃ t, selectFrame p f own port s = t ∧
          t.inLine p = s.inLine p ++ [.verifying ⟨originOf p, .verify, c, x, ((s.chan c).inSlot x).load, (headerOf f).seq, ((s.chan c).inSlot x).key,
            ((s.chan c).inSlot x).salt⟩ f own port] ∧
          (t.chan c).inSlot x = { (s.chan c).inSlot x with inFlight := ((s.chan c).inSlot x).inFlight + 1 } ∧
          (t.chan c).inSlot x.other = (s.chan c).inSlot x.other ∧ (∀ y, (t.chan c).outSlot y = (s.chan c).outSlot y) ∧
          (t.chan c).counters = (s.chan c).counters ∧ (∀ d, d ≠ c → t.chan d = s.chan d) ∧ (∀ q, q ≠ p → t.inLine q = s.inLine q) ∧
          t = { s with channels := t.channels, ports := t.ports, lanes := t.lanes })

/-! ### The replay window -/

/-- The window test: above the top is NEW, at or below top − W is LATE, between them a marked sequence is REPLAY and any other NEW; W 0 tests nothing
(R80). The window update of a sequence makes the greater of it and the top the new top, keeps the marks above that top − W, and adds the sequence; with W 0
there are no marks (R81). Every sequence that the window update recorded is judged LATE or REPLAY from then on, whatever other sequences are recorded after it, as long as
W stands: no frame passes the final check twice (R81, R82). -/
def Obligations.NoSequenceTwice : Prop :=
  (∀ (w top : Nat) (marks : List Nat) (q : Nat),
    (w = 0 → windowTest w top marks q = .fresh) ∧ (0 < w → top < q → windowTest w top marks q = .fresh) ∧
    (0 < w → q ≤ top → top < q + w → q ∈ marks → windowTest w top marks q = .replay) ∧
    (0 < w → q ≤ top → top < q + w → q ∉ marks → windowTest w top marks q = .fresh) ∧
    (0 < w → q + w ≤ top → windowTest w top marks q = .late)) ∧
  (∀ (w top : Nat) (marks : List Nat) (q : Nat) (new : Nat × List Nat), new = windowUpdate w top marks q →
    marks.Pairwise (· < ·) → (∀ m ∈ marks, m ≤ top ∧ top < m + w) →
    new.1 = max top q ∧ (w = 0 → new.2 = []) ∧ (0 < w → ∀ m, m ∈ new.2 ↔ m = q ∨ m ∈ marks ∧ max top q < m + w) ∧ new.2.Pairwise (· < ·)) ∧
  ∀ (w top : Nat) (marks : List Nat) (q : Nat) (later : List Nat), 0 < w → windowTest w top marks q = .fresh →
    let u := later.foldl (fun u r => if windowTest w u.1 u.2 r = .fresh then windowUpdate w u.1 u.2 r else u) (windowUpdate w top marks q)
    windowTest w u.1 u.2 q ≠ .fresh

/-! ### The inbound path -/

/-- The lookups of a lane begin in the order of its frames: a frame's own begins when no traffic frame before it is in verification, a clear frame's as
an inbound one, a return check as an outbound one at its port, and no other frame changes (R44, R47, R48; a frame in verification holds back the later
ones whether or not it will be checked, log 34). Their results are taken in that order. The oldest, a clear frame's: its hit counts, saturating, when it
began on the bank that is still ACTIVE; BYPASS leaves the frame to be handed on, and the other results drop and count it, PROTECT as a discard (R40, R47,
R49). The oldest, a return check: it passes a frame whose lookup gives PROTECT on its own channel, and drops and counts any other (R48). No lookup ends
before the oldest (R44). A result is fixed when its lookup begins (log 7). -/
def Obligations.InboundLookupsEnd : Prop :=
  (∀ (s : State) (items : List InItem) (i : Nat), (beginLookups s items).length = items.length ∧
     ∃ held : Prop, (held ↔ ∃ (j : Nat) (w : Work) (f : Frame) (own : Bool) (port : Option PortId),
       items[j]? = some (.verifying w f own port) ∧ j ≤ i ∧ 2 ≤ w.chan.val) ∧
     (∀ f n, items[i]? = some (.clear f n) → ¬ held → (beginLookups s items)[i]? = some (.lookup f n (beginLookup s .inbound n (innerBytes f)))) ∧
     (∀ inner n c octets own, items[i]? = some (.recovered inner n c octets own) → ¬ held →
       (beginLookups s items)[i]? = some (.checking inner n c octets own (beginLookup s .outbound n (innerBytes inner)))) ∧
     (held ∨ (∀ f n, items[i]? ≠ some (.clear f n)) ∧ (∀ inner n c octets own, items[i]? ≠ some (.recovered inner n c octets own)) →
       (beginLookups s items)[i]? = items[i]?)) ∧
  (∀ (k : LaneId) (s : State) (pre post : List InItem) (f : Frame) (n : PortId) (r : Lookup),
     (s.lane k).inLine = pre ++ .lookup f n r :: post → (∀ a ∈ pre, lookupGen a = none) →
     HitCounted r s (countHit r s) ∧
     (r.verdict = .bypass → exec (.inboundLookupEnd k) s =
       .next ((countHit r s).updLane k fun l => { l with inLine := pre ++ .ready (.clear f n) :: post })) ∧
     (∀ ctr, (r.verdict = .blocked ∧ ctr = .bypassBlocked ∨ r.verdict = .discard ∧ ctr = .discarded ∨ (∃ c, r.verdict = .protect c) ∧ ctr = .discarded ∨
         r.verdict = .noMatch ∧ ctr = .noMatch) →
       exec (.inboundLookupEnd k) s = .next (((countHit r s).countLane k ctr).updLane k fun l => { l with inLine := pre ++ post })) ∧
     ∀ i, exec (.returnCheck k i) s = .next s) ∧
  (∀ (k : LaneId) (s : State) (pre post : List InItem) (inner : Frame) (n : PortId) (c : Chan) (octets : Nat) (own : Bool) (r : Lookup),
     (s.lane k).inLine = pre ++ .checking inner n c octets own r :: post → (∀ a ∈ pre, lookupGen a = none) →
     (r.verdict = .protect c → exec (.returnCheck k pre.length) s =
       .next (s.updLane k fun l => { l with inLine := pre ++ .ready (.traffic inner n c octets own) :: post })) ∧
     (r.verdict ≠ .protect c → exec (.returnCheck k pre.length) s =
       .next ((s.countChan c .returnMismatch).updLane k fun l => { l with inLine := pre ++ post })) ∧
     exec (.inboundLookupEnd k) s = .next s ∧ ∀ i, i ≠ pre.length → exec (.returnCheck k i) s = .next s)

/-- A verify operation that fails, or whose slot became EMPTY or was loaded anew meanwhile, drops its frame: a failure counts auth fail and sets
AUTHFAIL, a stale frame counts stale, an own-role frame counts own-role failed for either; a failed channel 1 TEST frame goes on to the checker. The
slot's in-flight count decrements and its window stands (R23, R83, R84). That the lookups a traffic frame in verification held back begin at this
completion is the model's choice (log 34). -/
def Obligations.VerifyDrops : Prop :=
  ∀ (p : Place) (i : Nat) (s : State) (w : Work) (f : Frame) (own : Bool) (port : Option PortId),
    (s.inLine p)[i]? = some (.verifying w f own port) →
    ∃ s1, s1 = s.updChan w.chan (fun ch => ch.setIn w.letter { ch.inSlot w.letter with inFlight := (ch.inSlot w.letter).inFlight - 1 }) ∧
    ∃ s3, (∀ k, p = .lane k → s3 = s1.countLane k .ownFailed) ∧ ((∀ k, p ≠ .lane k) → s3 = s1) ∧
    (∀ s2, openFrame w.key w.salt f = none →
      s2 = (if own then s3 else
        (s1.countChan w.chan .authFail).updAgent fun a => { a with fifo := addKinds w.chan (kindBit .authfail) a.fifo }) →
      exec (.verifyCompletion p i) s = .next (settle (s2.setInLine p
        (beginLookups s (if w.chan = 1 ∧ headerTest (headerOf f) = true then (s.inLine p).set i (.ready .testFailed)
          else (s.inLine p).eraseIdx i))))) ∧
    ∀ text, openFrame w.key w.salt f = some text →
      ((s.chan w.chan).inSlot w.letter).state = .empty ∨ ((s.chan w.chan).inSlot w.letter).load ≠ w.load →
      exec (.verifyCompletion p i) s =
        .next (settle ((if own then s3 else s1.countChan w.chan .stale).setInLine p (beginLookups s ((s.inLine p).eraseIdx i))))

/-- A verified frame whose slot stands meets the final check. LATE or REPLAY drops and counts it; a frame that passes is recorded in the window,
promotes a PENDING slot, FIRST set, the CURRENT slot beside it beginning to fade for the grace time or, with grace 0, EMPTY with FADED set, and goes on
by its channel. An own-role frame meets no window and goes on at once (R80 to R82, R84, R85, R102, R103). That the lookups a traffic frame in
verification held back begin at this completion is the model's choice (log 34). -/
def Obligations.VerifyJudges : Prop :=
  ∀ (p : Place) (i : Nat) (s : State) (w : Work) (f : Frame) (own : Bool) (port : Option PortId) (text : List Byte) (slot : InSlot),
    (s.inLine p)[i]? = some (.verifying w f own port) → openFrame w.key w.salt f = some text →
    slot = (s.chan w.chan).inSlot w.letter → slot.state ≠ .empty → slot.load = w.load →
    ∃ goesOn : InItem → Prop,
    (∀ item, goesOn item ↔
      (w.chan = 0 ∧ item = .ready (.request text (frameSa f) (f.length - 28)) ∨
       w.chan = 1 ∧ headerTest (headerOf f) = true ∧ item = .ready (.test text (f.length - 28) own) ∨
       w.chan = 1 ∧ headerTest (headerOf f) = false ∧ item = .ready (.beacon text (headerOrigin (headerOf f)) (f.length - 28) own) ∨
       2 ≤ w.chan.val ∧ ∃ n, port = some n ∧
        ((s.chan w.chan).config.returnCheck = false ∧ item = .ready (.traffic (recoveredFrame f text) n w.chan (f.length - 28) own) ∨
         (s.chan w.chan).config.returnCheck = true ∧ item = .recovered (recoveredFrame f text) n w.chan (f.length - 28) own))) ∧
    (∀ item, own = true → goesOn item → exec (.verifyCompletion p i) s = .next (settle
      ((s.updChan w.chan fun ch => ch.setIn w.letter { slot with inFlight := slot.inFlight - 1 }).setInLine p
        (beginLookups s ((s.inLine p).set i item))))) ∧
    (∀ v ctr, own = false → v = windowTest (s.chan w.chan).config.window slot.top slot.marks w.seq.toNat →
      (v = .late ∧ ctr = ChanCtr.late ∨ v = .replay ∧ ctr = .replay) →
      exec (.verifyCompletion p i) s = .next (settle
        ((s.updChan w.chan fun ch => (ch.setIn w.letter { slot with inFlight := slot.inFlight - 1 }).count ctr).setInLine p
          (beginLookups s ((s.inLine p).eraseIdx i))))) ∧
    (∀ item, own = false → goesOn item → windowTest (s.chan w.chan).config.window slot.top slot.marks w.seq.toNat = .fresh →
      ∃ t slot', exec (.verifyCompletion p i) s = .next (settle t) ∧
        slot' = { slot with
          inFlight := slot.inFlight - 1
          top := (windowUpdate (s.chan w.chan).config.window slot.top slot.marks w.seq.toNat).1
          marks := (windowUpdate (s.chan w.chan).config.window slot.top slot.marks w.seq.toNat).2 } ∧
        (slot.state ≠ .pending → (t.chan w.chan).inSlot w.letter = slot' ∧
          (t.chan w.chan).inSlot w.letter.other = (s.chan w.chan).inSlot w.letter.other ∧ t.agent = s.agent) ∧
        (slot.state = .pending → (t.chan w.chan).inSlot w.letter = { slot' with state := .current, firstVerify := some s.time }) ∧
        (slot.state = .pending → ((s.chan w.chan).inSlot w.letter.other).state ≠ .current →
          (t.chan w.chan).inSlot w.letter.other = (s.chan w.chan).inSlot w.letter.other ∧
          t.agent = { s.agent with fifo := addKinds w.chan (kindBit .first) s.agent.fifo }) ∧
        (slot.state = .pending → ((s.chan w.chan).inSlot w.letter.other).state = .current → 0 < (s.chan w.chan).config.grace →
          (t.chan w.chan).inSlot w.letter.other = { (s.chan w.chan).inSlot w.letter.other with
            state := .fading, graceTimer := some { start := s.time, len := 1000 * (s.chan w.chan).config.grace } } ∧
          t.agent = { s.agent with fifo := addKinds w.chan (kindBit .first) s.agent.fifo }) ∧
        (slot.state = .pending → ((s.chan w.chan).inSlot w.letter.other).state = .current → (s.chan w.chan).config.grace = 0 →
          InCleared ((t.chan w.chan).inSlot w.letter.other) ∧
          t.agent = { s.agent with fifo := addKinds w.chan (kindBit .first ||| kindBit .faded) s.agent.fifo }) ∧
        (∀ x, (t.chan w.chan).outSlot x = (s.chan w.chan).outSlot x) ∧ (t.chan w.chan).counters = (s.chan w.chan).counters ∧
        (t.chan w.chan).config = (s.chan w.chan).config ∧ (∀ d, d ≠ w.chan → t.chan d = s.chan d) ∧
        t = { (s.setInLine p (beginLookups s ((s.inLine p).set i item))) with channels := t.channels, agent := t.agent })

/-- The oldest frame of a lane, once resolved, is handed on. A traffic, clear or transit frame enters the delivery queue of its port when it fits in
131,072 bytes, and is dropped and counted there otherwise; a verified peer-role frame counts on its channel and the lane's delivered counter, an
own-role one as own-role verified, a clear frame as delivered, a transit frame as management transit (R77, R85, R86, R116). A verified request counts on
channel 0 and reaches the intake, from a lane or from a port; a test frame reaches the checker of its lane, a failed one as bad, and is good when every
payload bit from the 23rd on is the exclusive-or of the bits 23 and 18 places before it (R85 to R87, R152, R153, R156). The checker locks at the eighth
good frame in a row, and unlocks when 4 of the last 16 judgements since are bad, TEST set at each (R153; the good run that stands while locked is the
model's, log 25). Own-role traffic counts as no delivery (log 16). -/
def Obligations.InboundFrameHandedOn : Prop :=
  (∀ (k : LaneId) (s : State) (h : HandOn) (rest : List InItem) (n : PortId) (bytes : Frame) (s1 : State),
     (s.lane k).inLine = .ready h :: rest →
     ((∃ c octets, h = .traffic bytes n c octets false ∧ s1 = (((s.updLane k fun l => { l with inLine := rest }).countChan c .verifiedFrames).countChan c
           .verifiedOctets octets).countLane k .delivered) ∨
      (∃ c octets, h = .traffic bytes n c octets true ∧ s1 = (s.updLane k fun l => { l with inLine := rest }).countLane k .ownVerified) ∨
      (h = .clear bytes n ∧ s1 = (s.updLane k fun l => { l with inLine := rest }).countLane k .delivered) ∨
      (h = .transit bytes n ∧ s1 = (s.updLane k fun l => { l with inLine := rest }).countLane k .mgmtTransit)) →
     (totalBytes ((s.port n).queue.map (·.bytes)) + bytes.length ≤ 131072 →
       exec (.inboundHandOn (.lane k)) s = .next (settle (s1.updPort n fun p => { p with queue := p.queue ++ [{ bytes, final := false }] }))) ∧
     (131072 < totalBytes ((s.port n).queue.map (·.bytes)) + bytes.length →
       exec (.inboundHandOn (.lane k)) s = .next (settle (s1.countPort n .deliveryOverflow)))) ∧
  ((∀ (p : Place) (s : State) (msg : List Byte) (sa : Addr) (octets : Nat) (rest : List InItem),
     s.inLine p = .ready (.request msg sa octets) :: rest →
     ∃ t, exec (.inboundHandOn p) s = .next (settle t) ∧
       RequestTaken p sa false msg (((s.setInLine p rest).countChan 0 .verifiedFrames).countChan 0 .verifiedOctets octets) t) ∧
   (∀ (payload : List Byte) (bit : Nat → Bool), (∀ i, bit i = (payload.getD (i / 8) 0).getLsbD (7 - i % 8)) →
     (payloadGood payload = true ↔ ∀ i, 23 ≤ i → i < 8 * payload.length → bit i = (bit (i - 23) != bit (i - 18)))) ∧
   (∀ (k : LaneId) (s : State) (payload : List Byte) (octets : Nat) (rest : List InItem),
     (s.lane k).inLine = .ready (.test payload octets false) :: rest →
     exec (.inboundHandOn (.lane k)) s =
       .next (settle (judgeTest k (payloadGood payload)
         (((s.updLane k fun l => { l with inLine := rest }).countChan 1 .verifiedFrames).countChan 1 .verifiedOctets octets)))) ∧
   (∀ (k : LaneId) (s : State) (payload : List Byte) (octets : Nat) (rest : List InItem),
     (s.lane k).inLine = .ready (.test payload octets true) :: rest →
     exec (.inboundHandOn (.lane k)) s =
       .next (settle (judgeTest k (payloadGood payload) ((s.updLane k fun l => { l with inLine := rest }).countLane k .ownVerified)))) ∧
   (∀ (k : LaneId) (s : State) (rest : List InItem), (s.lane k).inLine = .ready .testFailed :: rest →
     exec (.inboundHandOn (.lane k)) s = .next (settle (judgeTest k false (s.updLane k fun l => { l with inLine := rest })))) ∧
   ∀ (k : LaneId) (good : Bool) (s : State), ∃ s1 h, s1 = s.countLane k (if good then .testGood else .testBad) ∧
     h = ((s.lane k).judged ++ [good]).drop ((s.lane k).judged.length + 1 - 16) ∧
     ((s.lane k).locked = false → good = false → judgeTest k good s = s1.updLane k fun l => { l with goodRun := 0 }) ∧
     ((s.lane k).locked = false → good = true → (s.lane k).goodRun < 7 →
       judgeTest k good s = s1.updLane k fun l => { l with goodRun := l.goodRun + 1 }) ∧
     ((s.lane k).locked = false → good = true → 7 ≤ (s.lane k).goodRun →
       judgeTest k good s = (s1.updLane k fun l => { l with locked := true, goodRun := 8, judged := [] }).updAgent fun a =>
         { a with devices := a.devices ||| kindBit .test }) ∧
     ((s.lane k).locked = true → h.count false < 4 → judgeTest k good s = s1.updLane k fun l => { l with judged := h }) ∧
     ((s.lane k).locked = true → 4 ≤ h.count false →
       judgeTest k good s = (s1.updLane k fun l => { l with locked := false, goodRun := 0, judged := [] }).updAgent fun a =>
         { a with devices := a.devices ||| kindBit .test }))


/-! ### The lane unit -/

/-- The timers of a lane unit, when they have run out. The continuity timer takes an UP or LOOPED lane to DARK, counted as a continuity loss, and sets
the peer run and the loop run back in any state; LANE is set and the arbiter runs (R131, R140). The beacon timer restarts, and unless the lane is in LINE loopback a beacon of the values as they stand
is put in protection on channel 1, or withheld when channel 1 refuses its sequence. The rate timer restarts, and a test frame is made from the pattern
stream, one inject used up, or withheld in LINE loopback or without a sequence. Each bit of the stream is the exclusive-or of the bits 23 and 18 places
before it, the register holding the 23 bits before the frame and then its last 23 (R124, R125, R127, R128, R148, R150). When a timer has run out is by
log 8; the rate timer runs for whole microseconds (log 8). -/
def Obligations.LaneTimersExpire : Prop :=
  (∀ (k : LaneId) (s : State) (r : Timer), (s.lane k).continuity = some r → r.len ≤ (s.time - r.start).toNat →
    ∃ s1, s1 = s.updLane k (fun l => { l with continuity := none, peerRun := 0, loopRun := none }) ∧
    ((s.lane k).state = .dark ∨ (s.lane k).state = .los → exec (.continuityTimerExpiry k) s = .next s1) ∧
    ((s.lane k).state = .up ∨ (s.lane k).state = .looped →
      ∃ t, exec (.continuityTimerExpiry k) s = .next (settle t) ∧
        LaneMoved k (s1.updLane k fun l => { l.count .continuityLosses with state := .dark }) t ∧
        (t.lane k).state = .dark ∧ (t.lane k).continuity = none ∧
        (t.lane k).peerRun = 0 ∧ (t.lane k).loopRun = none ∧
        (t.lane k).ctr .continuityLosses = addCounter ((s.lane k).ctr .continuityLosses) 1 ∧ t.agent.devices.getLsbD 0 = true ∧
        t = { s with lanes := t.lanes, prot := t.prot, agent := t.agent })) ∧
  (∀ (k : LaneId) (s : State) (r : Timer), (s.lane k).beaconTimer = some r → r.len ≤ (s.time - r.start).toNat → blocked s = false →
    ∃ s1, s1 = s.updLane k (fun l => { l with beaconTimer := some { start := s.time, len := 100 * s.prot.interval } }) ∧
    ((s.lane k).loopMode = .line → exec (.beaconTimerExpiry k) s = .next s1) ∧
    (∀ ctr t, (s.lane k).loopMode ≠ .line → assignSequence 1 (.unit k) s1 = (.inl ctr, t) →
      exec (.beaconTimerExpiry k) s = .next (settle (t.countLane k .beaconWithheld))) ∧
    (∀ w epoch t, (s.lane k).loopMode ≠ .line → assignSequence 1 (.unit k) s1 = (.inr (w, epoch), t) →
      exec (.beaconTimerExpiry k) s = .next (settle (t.updLane k fun l => { l with unitLine := l.unitLine ++ [.protecting .beacon w
        ⟨0x50, epoch, if s.role = .campus then 0x8001 else 0x0001, w.seq⟩ s.ownAddr (beaconBytes k s ++ [0, 0, 0, 0])] })))) ∧
  (∀ (n : Nat) (r : BitVec 23), ∃ stream : Nat → Bool, (∀ i, i < 23 → stream i = r.getLsbD (22 - i)) ∧
    (∀ i, stream (i + 23) = (stream i != stream (i + 5))) ∧ (patternBytes n r).1.length = n ∧
    (∀ i, i < 8 * n → ((patternBytes n r).1.getD (i / 8) 0).getLsbD (7 - i % 8) = stream (i + 23)) ∧
    ∀ i, i < 23 → (patternBytes n r).2.getLsbD (22 - i) = stream (8 * n + i)) ∧
  ∀ (k : LaneId) (s : State) (r : Timer), (s.lane k).rateTimer = some r → r.len ≤ (s.time - r.start).toNat → blocked s = false →
    ∃ s1, s1 = s.updLane k (fun l => { l with rateTimer := some { start := s.time, len := 1000000 / l.rate } }) ∧
    ((s.lane k).loopMode = .line → exec (.rateTimerExpiry k) s = .next (s1.countLane k .testWithheld)) ∧
    (∀ ctr t, (s.lane k).loopMode ≠ .line → assignSequence 1 (.unit k) s1 = (.inl ctr, t) →
      exec (.rateTimerExpiry k) s = .next (settle (t.countLane k .testWithheld))) ∧
    (∀ w epoch t payload, (s.lane k).loopMode ≠ .line → assignSequence 1 (.unit k) s1 = (.inr (w, epoch), t) →
      payload = (patternBytes ((s.lane k).innerLen - 16) (s.lane k).pattern).1 →
      exec (.rateTimerExpiry k) s = .next (settle (t.updLane k fun l =>
        { l.count .testGenerated with
          pattern := (patternBytes ((s.lane k).innerLen - 16) (s.lane k).pattern).2
          inject := .none
          unitLine := l.unitLine ++ [.protecting (.test (decide ((s.lane k).inject = .tag))) w
            ⟨0x48, epoch, if s.role = .campus then 0x8001 else 0x0001, w.seq⟩ s.ownAddr
            (if (s.lane k).inject = .pattern then payload.set 8 (payload.getD 8 0 ^^^ 0x80) else payload)] })))

/-- What a beacon of the part carries is what its peer takes from it: every value of the sixteen bytes, behind the padding too (R125, R126, R178). The
far-fail set it carries holds exactly the lanes in LOS or DARK (R125). -/
def Obligations.BeaconReadsBack : Prop :=
  (∀ (s : State) (k : LaneId), (failedSet s).getLsbD k.val = true ↔ (s.lane k).state = .los ∨ (s.lane k).state = .dark) ∧
  ∀ (k : LaneId) (s : State), parseBeacon (padMessage 44 (beaconBytes k s)) (decide (s.role = .campus)) = some
    { sender := s.role, lane := k.val, condition := (s.lane k).state, farFail := failedSet s, bridgedLane := if s.role = .rack then s.prot.selection else none,
      echo := if s.role = .campus then s.prot.echo else none, loop := (s.lane k).loopField, time := s.time }

/-- A verified beacon handed on. One with an undefined encoding, one on a lane in LOS and one that names another lane is counted as ignored, in any loop
mode. In CIPHER loopback one that is taken is counted, leaves the peer report if it is peer-role, and sets the loop run to none; the monitor and the
controller take none (R129, R146, R148; log 19). Otherwise a peer-role beacon restarts the continuity timer for 3.5 intervals, raises the peer run up to
3, takes the lane to UP when the run stands at 3, and leaves its condition and time as the peer report and its far-fail set in the controller; an
own-role one sets the run to 0, takes the lane to LOOPED and leaves the report. Each is counted by its role; a change of the lane state sets LANE (R126
to R128, R131, R140, R178). The encoding is undefined by the sender role, which is also the role its origin bit names, the lane number, the condition,
the far-fail set, the bridged lane, the echo or the loop field; bytes 7 and past 15 are not judged; a payload of fewer than 16 bytes is undefined too
(R178; log 20). The beacon passes the monitor, the loop control and the controller in this order. A lane that becomes UP or LOOPED, a change of L4's loop
mode and another far-fail set each run the arbiter of a RACK part, in this order (R126, R131 to R134; log 24); where none of them happens, and always at a
CAMPUS part, selection, classes and WTR timer stay. The steering, the echo and the adoption run then move, the bridging with the echo (R136, R137). -/
def Obligations.BeaconHandedOn : Prop :=
  (∀ (payload : List Byte) (origin : Bool) (b : Nat → Nat), (∀ i, b i = (payload.getD i 0).toNat) →
    (parseBeacon payload origin = none ↔ payload.length < 16 ∨ b 0 ≠ (if origin then 1 else 0) ∨ 4 < b 1 ∨ 3 < b 2 ∨ 31 < b 3 ∨
      3 < b 4 ∧ b 4 ≠ 0xFF ∨ 3 < b 5 ∧ b 5 ≠ 0xFF ∨ 2 < b 6) ∧
    ∀ c, parseBeacon payload origin = some c → c.sender = (if origin then .campus else .rack) ∧ c.lane = b 1 ∧ conditionCode c.condition = b 2 ∧
      c.farFail.toNat = b 3 ∧ (c.bridgedLane.map (·.val)).getD 0xFF = b 4 ∧ (c.echo.map (·.val)).getD 0xFF = b 5 ∧ loopCode c.loop = b 6 ∧
      c.time.toNat = numAt payload 8 8) ∧
  ∀ (k : LaneId) (s s1 : State) (payload : List Byte) (origin own : Bool) (octets : Nat) (rest : List InItem),
    (s.lane k).inLine = .ready (.beacon payload origin octets own) :: rest →
    s1 = (if own then (s.updLane k fun l => { l with inLine := rest }).countLane k .ownVerified
      else ((s.updLane k fun l => { l with inLine := rest }).countChan 1 .verifiedFrames).countChan 1 .verifiedOctets octets) →
    ((parseBeacon payload origin = none ∨ ∃ c, parseBeacon payload origin = some c ∧ ((s.lane k).state = .los ∨ c.lane ≠ k.val)) →
      exec (.inboundHandOn (.lane k)) s = .next (settle (s1.countLane k .beaconsIgnored))) ∧
    (∀ c, (s.lane k).loopMode = .cipher → parseBeacon payload origin = some c → (s.lane k).state ≠ .los → c.lane = k.val →
      exec (.inboundHandOn (.lane k)) s = .next (settle (s1.updLane k fun l =>
        if own then { l.count .ownBeacons with loopRun := none }
        else { l.count .peerBeacons with loopRun := none, peerReport := some (c.condition, c.time) }))) ∧
    ∀ c, (s.lane k).loopMode ≠ .cipher → parseBeacon payload origin = some c → (s.lane k).state ≠ .los → c.lane = k.val →
      ∃ t, exec (.inboundHandOn (.lane k)) s = .next (settle t) ∧
        (t.lane k).continuity = some { start := s.time, len := 350 * s.prot.interval } ∧
        (own = false → (t.lane k).peerRun = min 3 ((s.lane k).peerRun + 1) ∧ (t.lane k).peerReport = some (c.condition, c.time) ∧
          (t.lane k).state = (if min 3 ((s.lane k).peerRun + 1) = 3 then .up else (s.lane k).state) ∧ t.prot.farFail = c.farFail) ∧
        (own = true → (t.lane k).peerRun = 0 ∧ (t.lane k).peerReport = (s.lane k).peerReport ∧ (t.lane k).state = .looped ∧
          t.prot.farFail = s.prot.farFail) ∧
        (∀ ctr, ctr ≠ .lostOnSwitch → ctr ≠ .loopOverrun →
          (t.lane k).ctr ctr = addCounter ((s1.lane k).ctr ctr) (if ctr = (if own then .ownBeacons else .peerBeacons) then 1 else 0)) ∧
        ((t.lane k).state ≠ (s.lane k).state → t.agent.devices.getLsbD 0 = true) ∧
        (∀ j, t.lane j = { s1.lane j with
          state := (t.lane j).state, peerRun := (t.lane j).peerRun, continuity := (t.lane j).continuity, peerReport := (t.lane j).peerReport
          loopMode := (t.lane j).loopMode, loopRun := (t.lane j).loopRun, returnQueue := (t.lane j).returnQueue, tx := (t.lane j).tx
          counters := (t.lane j).counters }) ∧
        (∀ j, j ≠ k → t.lane j = { s.lane j with tx := (t.lane j).tx, counters := (t.lane j).counters } ∧
          ∀ ctr, ctr ≠ .lostOnSwitch → (t.lane j).ctr ctr = (s.lane j).ctr ctr) ∧
        t.prot = { s.prot with
          farFail := t.prot.farFail, selection := t.prot.selection, classes := t.prot.classes, wtrTimer := t.prot.wtrTimer
          steering := t.prot.steering, echo := t.prot.echo, candidate := t.prot.candidate, adoptCount := t.prot.adoptCount } ∧
        t.agent = { s.agent with devices := t.agent.devices } ∧ t = { s1 with lanes := t.lanes, prot := t.prot, agent := t.agent } ∧
        (∃ a b e d : State, MonitorTook k own s1 a ∧ LoopTook k a b ∧
          e = b.updLane k (fun l => if own then l.count .ownBeacons else { l.count .peerBeacons with peerReport := some (c.condition, c.time) }) ∧
          (own = true → d = e) ∧ (own = false → FarFailTook c.farFail e d) ∧
          t.prot = { d.prot with steering := t.prot.steering, echo := t.prot.echo, candidate := t.prot.candidate, adoptCount := t.prot.adoptCount } ∧
          BridgingMoved d.prot.echo t.prot.echo d t ∧ OnlyLanesCut d t ∧
          t.agent.devices = (if t.prot.steering = d.prot.steering ∧ t.prot.echo = d.prot.echo then d.agent.devices
            else d.agent.devices ||| kindBit .protect)) ∧
        (s.role = .campus ∨ (t.lane k).state = (s.lane k).state ∧ t.prot.farFail = s.prot.farFail ∧ (k = 4 → (t.lane 4).loopMode = (s.lane 4).loopMode) →
          t.prot.selection = s.prot.selection ∧ t.prot.classes = s.prot.classes ∧ t.prot.wtrTimer = s.prot.wtrTimer)

/-- The loop control takes the loop field of a verified beacon after the monitor. Runs are not tracked in CIPHER loopback, while the lane's own loop
field is REQUEST or with auto-accept off; there, and at an own-role beacon or the field NONE, the run becomes none and nothing else of the loop changes.
A REQUEST or RELEASE keeps the run of the same code or starts one now. When the run has lasted the persistence, a REQUEST on a lane that is not looped
begins LINE loopback, and a RELEASE on one in LINE loopback ends it, the frames of its return queue discarded and counted as overrun; LOOP is set at
each. A complete run has no other effect. L4 in LINE loopback is not available, so the selection of a RACK part becomes none (R126, R131, R145, R148).
The start and end of a run are told by the time counter (log 8). -/
def Obligations.BeaconLoopJudged : Prop :=
  ∀ (k : LaneId) (s : State) (l : Lane) (c : BeaconContent) (payload : List Byte) (origin own : Bool) (octets : Nat) (rest : List InItem), l = s.lane k →
    l.inLine = .ready (.beacon payload origin octets own) :: rest → parseBeacon payload origin = some c → l.state ≠ .los → c.lane = k.val →
    ∃ (t : State) (m : Lane) (untracked : Prop), exec (.inboundHandOn (.lane k)) s = .next (settle t) ∧ m = t.lane k ∧
      (untracked ↔ l.loopMode = .cipher ∨ l.loopField = .request ∨ l.autoAccept = false ∨ own = true ∨ c.loop = .none) ∧
      (untracked → m.loopRun = none ∧ m.loopMode = l.loopMode ∧ m.returnQueue = l.returnQueue ∧ m.ctr .loopOverrun = l.ctr .loopOverrun) ∧
      (∀ start, ¬ untracked → (l.loopRun = some (c.loop, start) ∨ (∀ u, l.loopRun ≠ some (c.loop, u)) ∧ start = s.time) →
        m.loopRun = some (c.loop, start) ∧
        (l.persistence * 1000000 ≤ (s.time - start).toNat → c.loop = .request → l.loopMode = .none →
          m.loopMode = .line ∧ m.returnQueue = l.returnQueue ∧ m.ctr .loopOverrun = l.ctr .loopOverrun ∧ t.agent.devices.getLsbD 2 = true ∧
          (k = 4 → s.role = .rack → t.prot.selection = none)) ∧
        (l.persistence * 1000000 ≤ (s.time - start).toNat → c.loop = .release → l.loopMode = .line →
          m.loopMode = .none ∧ m.returnQueue = [] ∧ m.ctr .loopOverrun = addCounter (l.ctr .loopOverrun) l.returnQueue.length ∧
          t.agent.devices.getLsbD 2 = true) ∧
        ((s.time - start).toNat < l.persistence * 1000000 ∨ c.loop = .request ∧ l.loopMode = .line ∨ c.loop = .release ∧ l.loopMode = .none →
          m.loopMode = l.loopMode ∧ m.returnQueue = l.returnQueue ∧ m.ctr .loopOverrun = l.ctr .loopOverrun)) ∧
      ∀ j, j ≠ k → (t.lane j).loopMode = (s.lane j).loopMode ∧ (t.lane j).loopRun = (s.lane j).loopRun ∧ (t.lane j).returnQueue = (s.lane j).returnQueue

/-- What moves the steering, the echo and the adoption run. In the RACK role a beacon of a campus part on L4, with L4 UP once the monitor took it, makes
its echo the steering. In the CAMPUS role the bridged lane of a rack part's beacon on L4, with L4 UP, raises the count of the candidate it equals up to
3 or becomes the candidate with count 1; at 3 a candidate other than the echo becomes the echo and the steering, and the bridging moves. PROTECT is set
at each change. A beacon on a working lane moves none of them, nor one whose sender has this part's role, which a LOCK burn overtook (log 35). An
own-role beacon on L4 ends the adoption run of a CAMPUS part. L4 becoming LOOPED by it, LOS by its pin or DARK by its timer makes steering and
selection, or echo and steering, none (R125 to R127, R131, R135 to R137, R140). When a timer has run out is by log 8. -/
def Obligations.SteeringAndAdoption : Prop :=
  (∀ (k : LaneId) (s : State) (c : BeaconContent) (payload : List Byte) (origin own : Bool) (octets : Nat) (rest : List InItem),
    (s.lane k).inLine = .ready (.beacon payload origin octets own) :: rest → parseBeacon payload origin = some c → (s.lane k).state ≠ .los →
    c.lane = k.val → (s.lane k).loopMode ≠ .cipher →
    ∃ (t : State) (up : Prop), exec (.inboundHandOn (.lane k)) s = .next (settle t) ∧
      (up ↔ own = false ∧ ((s.lane k).state = .up ∨ min 3 ((s.lane k).peerRun + 1) = 3)) ∧
      (k ≠ 4 ∨ own = false ∧ (¬ up ∨ c.sender = s.role) → t.prot.steering = s.prot.steering ∧ t.prot.echo = s.prot.echo ∧
        t.prot.candidate = s.prot.candidate ∧ t.prot.adoptCount = s.prot.adoptCount) ∧
      (k = 4 → up → s.role = .rack → c.sender = .campus → t.prot.steering = c.echo ∧
        (s.prot.steering ≠ c.echo → t.agent.devices.getLsbD 1 = true) ∧
        t.prot.echo = s.prot.echo ∧ t.prot.candidate = s.prot.candidate ∧ t.prot.adoptCount = s.prot.adoptCount) ∧
      (k = 4 → up → s.role = .campus → c.sender = .rack → ∃ count, count = (if c.bridgedLane = s.prot.candidate then min 3 (s.prot.adoptCount + 1) else 1) ∧
        t.prot.candidate = c.bridgedLane ∧ t.prot.adoptCount = count ∧ BridgingMoved s.prot.echo t.prot.echo s t ∧
        (count = 3 ∧ c.bridgedLane ≠ s.prot.echo →
          t.prot.echo = c.bridgedLane ∧ t.prot.steering = c.bridgedLane ∧ t.agent.devices.getLsbD 1 = true) ∧
        (count ≠ 3 ∨ c.bridgedLane = s.prot.echo → t.prot.echo = s.prot.echo ∧ t.prot.steering = s.prot.steering)) ∧
      (k = 4 → own = true → ((s.lane 4).state ≠ .looped → StandbyLost s t) ∧
        ((s.lane 4).state = .looped → t.prot.steering = s.prot.steering ∧ t.prot.echo = s.prot.echo) ∧
        (s.role = .campus → t.prot.candidate = none ∧ t.prot.adoptCount = 0))) ∧
  (∀ s : State, s.pins.los.getLsbD 4 = false → (s.lane 4).state ≠ .los →
    ∃ t, exec (.losAssert 4) s = .next (settle t) ∧ (t.lane 4).state = .los ∧ StandbyLost s t) ∧
  ∀ (s : State) (r : Timer), (s.lane 4).continuity = some r → r.len ≤ (s.time - r.start).toNat → (s.lane 4).state = .up ∨ (s.lane 4).state = .looped →
    ∃ t, exec (.continuityTimerExpiry 4) s = .next (settle t) ∧ (t.lane 4).state = .dark ∧ StandbyLost s t

/-- The oldest beacon or test frame of a lane unit, once it passed its completion, is offered to the control queue: a beacon replaces one that is
queued, a frame is appended when fewer than four are queued, and is discarded and counted otherwise. A frame that enters counts its octets on channel 1
(R71, R123). That a frame counts as protected when its queue takes it, and a skipped one does not, is read from these rules (log 15). -/
def Obligations.ControlQueueOffered : Prop :=
  ∀ (k : LaneId) (s s1 : State) (kind : LinkKind) (env : Frame) (rest : List UnitItem) (f : CtlFrame),
    (s.lane k).unitLine = .passed kind env :: rest → s1 = s.updLane k (fun l => { l with unitLine := rest }) →
    f = { kind := if kind = .beacon then .beacon else .test, bytes := env } →
    (∀ pre g post, kind = .beacon → (s.lane k).control = pre ++ g :: post → g.kind = .beacon → (∀ x ∈ pre ++ post, x.kind ≠ .beacon) →
      exec (.controlQueueOffer k) s = .next (((s1.updLane k fun l => { l with control := pre ++ f :: post }).countChan 1 .protectedFrames).countChan 1
        .protectedOctets (env.length - 28))) ∧
    ((kind ≠ .beacon ∨ ∀ x ∈ (s.lane k).control, x.kind ≠ .beacon) → (s.lane k).control.length < 4 →
      exec (.controlQueueOffer k) s = .next (((s1.updLane k fun l => { l with control := l.control ++ [f] }).countChan 1 .protectedFrames).countChan 1
        .protectedOctets (env.length - 28))) ∧
    ((kind ≠ .beacon ∨ ∀ x ∈ (s.lane k).control, x.kind ≠ .beacon) → 4 ≤ (s.lane k).control.length →
      exec (.controlQueueOffer k) s = .next (s1.countLane k (if kind = .beacon then .beaconSkipped else .testSkipped)))

/-- An idle lane transmitter takes the next frame by strict priority, a beacon, the oldest reply or notice, the oldest test frame, the head of the
buffer it serves, which is then judged against XON; in LINE loopback it takes the head of the return queue alone. The frame leaves its source and is
counted (R109, R111, R122, R145). A working lane serves its own port unless that is bridged, and then none; L4 serves the bridged port, which is the
selection of a RACK part and the echo of a CAMPUS part (R109, R122, R130). The end of a transmission leaves the transmitter idle (R122); the end of the reply of a request that ended with
RESTART begins the cold reset (R169); a protected buffer frame that ends on a lane in CIPHER loopback is fed back into its inbound path, to slot
selection as an own-role frame for the port the lane is bound to, or dropped as unselected (R76, R78, R146). That one whose origin bit a LOCK burn made
the peer role's is handled as peer-role is the model's choice (log 44). A frame whose transmission ended otherwise leaves the model (log 26). -/
def Obligations.LaneTransmits : Prop :=
  (∀ s : State, (s.role = .rack → bridged s = s.prot.selection) ∧ (s.role = .campus → bridged s = s.prot.echo) ∧ servedPort s 4 = bridged s ∧
    ∀ (k : LaneId) (n : PortId), k.val = n.val →
      (bridged s ≠ some n → servedPort s k = some n) ∧ (bridged s = some n → servedPort s k = none)) ∧
  (∀ (k : LaneId) (s : State) (pre post : List CtlFrame) (f : CtlFrame), blocked s = false → (s.lane k).tx = none → (s.lane k).loopMode ≠ .line →
    (s.lane k).control = pre ++ f :: post →
    (f.kind = .beacon ∧ (∀ x ∈ pre, x.kind ≠ .beacon) ∨
     f.kind ≠ .beacon ∧ f.kind ≠ .test ∧ (∀ x ∈ pre ++ post, x.kind ≠ .beacon) ∧ (∀ x ∈ pre, x.kind = .test) ∨
     f.kind = .test ∧ pre = [] ∧ ∀ x ∈ post, x.kind = .test) →
    ∃ t, exec (.laneTransmitStart k) s = .next t ∧ (t.lane k).tx = some { bytes := f.bytes, source := .control f.kind } ∧
      (t.lane k).control = pre ++ post ∧ (t.lane k).ctr .framesSent = addCounter ((s.lane k).ctr .framesSent) 1 ∧
      (t.lane k).ctr .octetsSent = addCounter ((s.lane k).ctr .octetsSent) f.bytes.length ∧
      (t.lane k).ctr .beaconsSent = addCounter ((s.lane k).ctr .beaconsSent) (if f.kind = .beacon then 1 else 0) ∧
      (∀ c, c ≠ .framesSent → c ≠ .octetsSent → c ≠ .beaconsSent → (t.lane k).ctr c = (s.lane k).ctr c) ∧
      t.lane k = { s.lane k with tx := (t.lane k).tx, control := pre ++ post, counters := (t.lane k).counters } ∧
      (∀ j, j ≠ k → t.lane j = s.lane j) ∧ t = { s with lanes := t.lanes }) ∧
  (∀ (k : LaneId) (s : State) (n : PortId) (f : BufFrame) (rest : List BufFrame), blocked s = false → (s.lane k).tx = none →
    (s.lane k).loopMode ≠ .line → (s.lane k).control = [] → servedPort s k = some n → (s.port n).buffer = f :: rest →
    ∃ t, exec (.laneTransmitStart k) s = .next t ∧ (t.lane k).tx = some { bytes := f.bytes, source := .buffer n f.isProtected } ∧
      (t.lane k).counters = ((((s.lane k).count .framesSent).count .octetsSent f.bytes.length).count .bufferFramesSent).counters ∧
      t.lane k = { s.lane k with tx := (t.lane k).tx, counters := (t.lane k).counters } ∧ (t.port n).buffer = rest ∧
      (totalBytes (rest.map (·.bytes)) ≤ (s.port n).xon ∧ (s.port n).pauseEnable = true ∧ (s.port n).inForce = true →
        (t.port n).inForce = false ∧ (t.port n).refresh = none ∧
        (t.port n).pendingPause = (if (s.port n).announced then .off else .none)) ∧
      ((s.port n).xon < totalBytes (rest.map (·.bytes)) ∨ (s.port n).pauseEnable = false ∨ (s.port n).inForce = false →
        t.port n = { s.port n with buffer := rest }) ∧
      (t.port n).announced = (s.port n).announced ∧ (t.port n).counters = (s.port n).counters ∧ (t.port n).queue = (s.port n).queue ∧
      (∀ j, j ≠ k → t.lane j = s.lane j) ∧ (∀ m, m ≠ n → t.port m = s.port m) ∧ t = { s with lanes := t.lanes, ports := t.ports }) ∧
  (∀ (k : LaneId) (s : State) (f : Frame) (rest : List Frame), blocked s = false → (s.lane k).tx = none → (s.lane k).loopMode = .line →
    (s.lane k).returnQueue = f :: rest →
    exec (.laneTransmitStart k) s = .next (s.updLane k fun l =>
      { (l.count .framesSent).count .octetsSent f.length with returnQueue := rest, tx := some { bytes := f, source := .returned } })) ∧
  (∀ (k : LaneId) (s : State), blocked s = false → (s.lane k).tx = none →
    ((s.lane k).loopMode = .line ∧ (s.lane k).returnQueue = [] ∨
     (s.lane k).loopMode ≠ .line ∧ (s.lane k).control = [] ∧ ∀ n, servedPort s k = some n → (s.port n).buffer = []) →
    exec (.laneTransmitStart k) s = .next s) ∧
  (∀ (k : LaneId) (s : State) (x : LaneTx), (s.lane k).tx = some x →
    (x.source = .control (.reply true) → s.agent.restart = none) → ((∃ n, x.source = .buffer n true) → (s.lane k).loopMode ≠ .cipher) →
    exec (.laneTransmitEnd k) s = .next (s.updLane k fun l => { l with tx := none })) ∧
  (∀ (k : LaneId) (s : State) (x : LaneTx) (r : Timer), (s.lane k).tx = some x → x.source = .control (.reply true) → s.agent.restart = some r →
    ∃ t, exec (.laneTransmitEnd k) s = .next t ∧ IsCold s.pins s t) ∧
  ∀ (k : LaneId) (s : State) (x : LaneTx) (n : PortId) (own : Bool), (s.lane k).tx = some x → x.source = .buffer n true → (s.lane k).loopMode = .cipher →
    malformed x.bytes = false → 2 ≤ (headerChan (headerOf x.bytes)).val → own = decide (headerOrigin (headerOf x.bytes) = decide (s.role = .campus)) →
    (∀ m, boundPort s k = some m → exec (.laneTransmitEnd k) s =
      .next (settle (selectFrame (.lane k) x.bytes own (some m) (s.updLane k fun l => { l with tx := none })))) ∧
    (boundPort s k = none → exec (.laneTransmitEnd k) s =
      .next (settle ((s.updLane k fun l => { l with tx := none }).countLane k .unselected)))

/-! ### The inner port transmitter and its timers -/

/-- A pending pause frame goes first. An ON frame carries the greater of 1 and the excess of the occupancy over XON in units of 64 bytes, rounded up, as
they stand when it begins, which lies in 1..8,192; an OFF frame carries 0 (R112). The pause record moves as R111 states and the refresh timer starts. -/
def Obligations.PauseFrameBegins : Prop :=
  ∀ (n : PortId) (s : State), blocked s = false → (s.port n).tx = none →
    ((s.port n).pendingPause = .on → ∃ (q : Nat) (r : Timer),
      (1 ≤ q ∧ bufOccupancy (s.port n) - (s.port n).xon ≤ 64 * q ∧ (1 < q → 64 * (q - 1) < bufOccupancy (s.port n) - (s.port n).xon)) ∧
      (bufOccupancy (s.port n) ≤ 524288 → q ≤ 8192) ∧
      exec (.portTransmitPause n) s = .next (s.updPort n fun p => { p.count .pauseSent with
        tx := some { bytes := pauseFrame s.ownAddr q, final := false }
        pendingPause := .none
        announced := true
        refresh := some r })) ∧
    ((s.port n).pendingPause = .off → exec (.portTransmitPause n) s = .next (s.updPort n fun p => { p.count .releaseSent with
        tx := some { bytes := pauseFrame s.ownAddr 0, final := false }
        pendingPause := .none
        announced := false })) ∧
    ((s.port n).pendingPause = .none → exec (.portTransmitPause n) s = .next s)

/-- With no pause frame pending and no hold in force the head of the delivery queue is taken and counted; the end of a transmission leaves the
transmitter idle, or begins the cold reset that waited for it. The refresh timer runs for the quanta of its ON frame. Its expiry makes a new ON pending
while the pause is in force, and a hold ends when its time has passed (R111, R113, R117, R118, R169). When a timer has run out is by log 8. -/
def Obligations.PortTransmits : Prop :=
  (∀ (n : PortId) (s : State) (f : PortFrame) (rest : List PortFrame), blocked s = false → (s.port n).tx = none → (s.port n).pendingPause = .none →
    (s.port n).hold = none → (s.port n).queue = f :: rest →
    exec (.portTransmitQueueFrame n) s = .next (s.updPort n fun p =>
      { (p.count .sentFrames).count .sentOctets f.bytes.length with tx := some f, queue := rest })) ∧
  (∀ (n : PortId) (s : State), ((s.port n).pendingPause ≠ .none ∨ (s.port n).hold ≠ none ∨ (s.port n).queue = []) →
    exec (.portTransmitQueueFrame n) s = .next s) ∧
  (∀ (n : PortId) (s : State) (f : PortFrame), (s.port n).tx = some f → (f.final = false ∨ s.agent.restart = none) →
    exec (.portTransmitEnd n) s = .next (s.updPort n fun p => { p with tx := none })) ∧
  (∀ (n : PortId) (s : State) (f : PortFrame) (r : Timer), (s.port n).tx = some f → f.final = true → s.agent.restart = some r →
    ∃ t, exec (.portTransmitEnd n) s = .next t ∧ IsCold s.pins s t) ∧
  (∀ (n : PortId) (s : State), blocked s = false → (s.port n).tx = none → (s.port n).pendingPause = .on →
    ∃ t q, exec (.portTransmitPause n) s = .next t ∧ (t.port n).tx = some { bytes := pauseFrame s.ownAddr q, final := false } ∧
      (t.port n).refresh = some { start := s.time, len := q * 512 / 100000 }) ∧
  (∀ (n : PortId) (s : State) (r : Timer), (s.port n).refresh = some r → r.len ≤ (s.time - r.start).toNat →
    exec (.pauseRefreshExpiry n) s = .next (s.updPort n fun p =>
      { p with refresh := none, pendingPause := if p.inForce then .on else p.pendingPause })) ∧
  ∀ (n : PortId) (s : State) (r : Timer), (s.port n).hold = some r → r.len ≤ (s.time - r.start).toNat →
    exec (.pauseHoldExpiry n) s = .next (s.updPort n fun p => { p with hold := none })

/-! ### Rollover, protection and notice timers -/

/-- A switch is made when a slot is LOADED beside the slot in service, with another epoch, or beside none in service. The slot in service becomes
DRAINING with a frame in flight and EMPTY without; the LOADED one, A before B when none is in service, becomes LIVE with the time of the switch;
everything else of the record stays (R93, R94). -/
def Obligations.SwitchRule : Prop :=
  ∀ (now : Time) (ch : Channel), ¬ (inService ch.outA ∧ inService ch.outB) →
    (switchMade ch = true ↔
      (∃ x, inService (ch.outSlot x) ∧ (ch.outSlot x.other).state = .loaded ∧ (ch.outSlot x.other).epoch ≠ (ch.outSlot x).epoch) ∨
      (∀ x, ¬ inService (ch.outSlot x)) ∧ ∃ x, (ch.outSlot x).state = .loaded) ∧
    (switchMade ch = true → ∃ y d, d = makeSwitch now ch ∧ y = switchTarget ch ∧ (ch.outSlot y).state = .loaded ∧
      d.outSlot y = { ch.outSlot y with state := .live, switchTime := some now } ∧
      d = { ch with outA := d.outA, outB := d.outB } ∧
      ((∀ x, ¬ inService (ch.outSlot x)) → d.outSlot y.other = ch.outSlot y.other ∧ (ch.outA.state = .loaded → y = .a)) ∧
      (inService (ch.outSlot y.other) → 0 < (ch.outSlot y.other).inFlight → d.outSlot y.other = { ch.outSlot y.other with state := .draining }) ∧
      (inService (ch.outSlot y.other) → (ch.outSlot y.other).inFlight = 0 → OutCleared (d.outSlot y.other) ∧
        (d.outSlot y.other).load = (ch.outSlot y.other).load ∧ (d.outSlot y.other).inFlight = 0) ∧
      ∀ x, inService (d.outSlot x) → x = y)

/-- The grace of a FADING slot ends with the slot EMPTY and FADED set, the rest of the channel kept. A schedule whose time is reached is removed; its
switch is made with SWITCHED set, or it lapses with MISSED set (R95, R100, R103). The WTR timer's expiry takes the selected lane out of WAIT and, when
no other lane holds a request, ends the selection with PROTECT set; the holdoff's expiry lets the notice conditions be judged again (R134, R135, R167).
When a timer has run out is by log 8; a schedule may be judged at a count after its time (log 43). A report on a channel that is in the channel FIFO joins
its set and keeps its place; one on a channel that is not appends it at the tail. Each kind has its own bit, in the order of R177 (R165). -/
def Obligations.WaitTimersExpire : Prop :=
  ((∀ (c : Chan) (ks k : KindSet) (fifo pre post : List (Chan × KindSet)),
     (fifo = pre ++ (c, k) :: post → (∀ e ∈ pre, e.1 ≠ c) → addKinds c ks fifo = pre ++ (c, k ||| ks) :: post) ∧
     ((∀ e ∈ fifo, e.1 ≠ c) → addKinds c ks fifo = fifo ++ [(c, ks)])) ∧
   (∀ (c : Chan) (ks : KindSet) (s : State), (ks = 0 → reportChan c ks s = s) ∧
     (ks ≠ 0 → reportChan c ks s = s.updAgent fun a => { a with fifo := addKinds c ks a.fifo })) ∧
   ∀ (i : Nat) (k : Kind), [Kind.lane, .protect, .loop, .test, .queue, .switched, .soft, .halted, .first, .faded, .missed, .authfail][i]? = some k →
     ∀ j, (kindBit k).getLsbD j = decide (j = i)) ∧
  ((∀ (c : Chan) (x : Letter) (s : State) (r : Timer), ((s.chan c).inSlot x).state = .fading → ((s.chan c).inSlot x).graceTimer = some r →
     r.len ≤ (s.time - r.start).toNat →
     ∃ t, exec (.graceExpiry c x) s = .next (settle t) ∧ InCleared ((t.chan c).inSlot x) ∧
       ((t.chan c).inSlot x).load = ((s.chan c).inSlot x).load ∧ ((t.chan c).inSlot x).inFlight = ((s.chan c).inSlot x).inFlight ∧
       t.chan c = (s.chan c).setIn x ((t.chan c).inSlot x) ∧ (∀ d, d ≠ c → t.chan d = s.chan d) ∧
       t.agent = { s.agent with fifo := addKinds c (kindBit .faded) s.agent.fifo } ∧ t = { s with channels := t.channels, agent := t.agent }) ∧
   ∀ (c : Chan) (s : State) (due : Time), (s.chan c).schedule = some due →
     (s.time < due → exec (.scheduleDue c) s = .next s) ∧
     (due ≤ s.time → switchMade (s.chan c) = false →
       exec (.scheduleDue c) s = .next (settle ((s.updChan c fun ch => { ch with schedule := none }).updAgent fun a =>
         { a with fifo := addKinds c (kindBit .missed) a.fifo }))) ∧
     (due ≤ s.time → switchMade (s.chan c) = true →
       exec (.scheduleDue c) s = .next (settle ((s.updChan c fun ch => { makeSwitch s.time ch with schedule := none }).updAgent fun a =>
         { a with fifo := addKinds c (kindBit .switched) a.fifo })))) ∧
  ((∀ (s : State) (n : PortId) (r : Timer), s.prot.wtrTimer = some r → r.len ≤ (s.time - r.start).toNat → s.role = .rack → s.prot.selection = some n →
     (∀ m, s.prot.force ≠ some m ∧ s.prot.manual ≠ some m ∧ workingFailed s m = false) →
     ∃ t, exec .wtrExpiry s = .next (settle t) ∧ t.prot.selection = none ∧ t.prot.wtrTimer = none ∧
       (∀ m : PortId, t.prot.classes[m] = .none) ∧ t.prot = { s.prot with selection := none, wtrTimer := none, classes := t.prot.classes } ∧
       t.agent = { s.agent with devices := s.agent.devices ||| kindBit .protect } ∧ (∀ j, j ≠ 4 → t.lane j = s.lane j) ∧
       (∀ x p, (s.lane 4).tx = some x → x.source = .buffer n p → t.lane 4 = { (s.lane 4).count .lostOnSwitch with tx := none }) ∧
       ((∀ x p, (s.lane 4).tx = some x → x.source ≠ .buffer n p) → t.lane 4 = s.lane 4) ∧
       t = { s with lanes := t.lanes, prot := t.prot, agent := t.agent }) ∧
   ∀ (s : State) (r : Timer), s.agent.holdoff = some r → r.len ≤ (s.time - r.start).toNat →
     exec .holdoffExpiry s = .next (settle (s.updAgent fun a => { a with holdoff := none })))

/-- The arbiter's choice: none without the standby lane or without a request; otherwise a lane of the highest class present, in the order FORCE, FAIL,
MANUAL, WAIT, the lane that holds the selection before any other and the lowest-numbered one next (R132, R133). A run of the arbiter in the RACK role
judges the classes and the availability afresh, starts, keeps or stops the WTR timer, and at a change of the selection moves the bridging, cuts what is
in transmission for the buffers that move, and sets PROTECT (R131 to R135). The CAMPUS role does not arbitrate (R137). The WTR timer counts microseconds
(log 8). -/
def Obligations.ArbiterRuns : Prop :=
  (∀ (available : Bool) (classes : Vector ReqClass 4) (sel : Option PortId) (rank : ReqClass → Nat),
    rank .none = 0 → rank .wait = 1 → rank .manual = 2 → rank .fail = 3 → rank .force = 4 →
    (available = false ∨ (∀ n : PortId, classes[n] = .none) → arbiter available classes sel = none) ∧
    (available = true → (∃ n : PortId, classes[n] ≠ .none) →
      ∃ n : PortId, arbiter available classes sel = some n ∧ (∀ m : PortId, rank classes[m] ≤ rank classes[n]) ∧
        (sel ≠ some n → (∀ m : PortId, sel = some m → rank classes[m] < rank classes[n]) ∧
          ∀ m : PortId, m < n → rank classes[m] < rank classes[n]))) ∧
  (∀ s : State, s.role = .rack → ArbiterRan s (runArbiter s)) ∧ ∀ s : State, s.role = .campus → runArbiter s = s

/-! ### The agent -/

/-- The sender offers the frame in hand. A control queue with room takes it, a full one refuses it and the frame stays, and in LINE loopback it is lost, one refused before that
loopback began too (log 40);
a delivery queue takes what fits in 131,072 bytes and loses the rest. A frame taken is counted, on channel 0 too when it was protected; a lost reply is
counted, and begins the cold reset that waited for it; a lost notice is counted and its kinds are set again, in the order of its entries (log 36) (R71,
R116, R123, R161, R167, R169). That a protected frame counts on channel 0 when its queue takes it, and a lost one does not, is read from these rules
(log 15). -/
def Obligations.SenderOffers : Prop :=
  ∀ (s : State) (hand : Hand) (bytes : Frame) (octets : Option Nat),
    s.agent.hand = some hand → hand.stage = .ready bytes octets →
    ∃ sent lost : State → State,
      (∀ t, sent t = (match octets with
        | some n => ((t.updAgent fun a => { a.count (sentCtr hand.kind) with hand := none }).countChan 0 .protectedFrames).countChan 0 .protectedOctets n
        | none => t.updAgent fun a => { a.count (sentCtr hand.kind) with hand := none })) ∧
      (∀ t final, hand.kind = .reply final → t.agent.restart = none ∨ final = false →
        lost t = t.updAgent fun a => { a.count .replyLost with hand := none }) ∧
      (∀ t r, hand.kind = .reply true → t.agent.restart = some r → IsCold t.pins t (lost t)) ∧
      (∀ t devices entries, hand.kind = .notice devices entries → lost t =
        entries.foldl (fun u e => reportChan e.1 e.2 u)
          (t.updAgent fun a => { a.count .noticeLost with hand := none, devices := a.devices ||| devices })) ∧
      (∀ k, hand.place = .lane k → (s.lane k).control.length < 4 → exec .senderSend s =
        .next (settle (sent (s.updLane k fun l => { l with control := l.control ++ [{ kind := handCtl hand.kind, bytes }] })))) ∧
      (∀ k, hand.place = .lane k → 4 ≤ (s.lane k).control.length → (s.lane k).loopMode ≠ .line → exec .senderSend s = .next s) ∧
      (∀ k, hand.place = .lane k → 4 ≤ (s.lane k).control.length → (s.lane k).loopMode = .line →
        exec .senderSend s = .next (settle (lost s))) ∧
      (∀ n, hand.place = .port n → totalBytes ((s.port n).queue.map (·.bytes)) + bytes.length ≤ 131072 → exec .senderSend s =
        .next (settle (sent (s.updPort n fun p => { p with queue := p.queue ++ [{ bytes, final := handFinal hand.kind }] })))) ∧
      (∀ n, hand.place = .port n → 131072 < totalBytes ((s.port n).queue.map (·.bytes)) + bytes.length →
        exec .senderSend s = .next (settle (lost (s.countPort n .deliveryOverflow))))

/-- The runner. It takes the oldest request when it holds none, no reply waits or is in hand, and no restart is pending. Before each directive it makes
the budget test, and a failing one skips it and the rest; otherwise the directive is carried out. A record joins its request; the last one, or one that
is not DONE with all after it SKIPPED, ends the request and its reply waits for the sender (R158 to R160, R169). A TIME-READ waits while the counter
stands at a time that an earlier one of its request reported, so that the two report increasing values (R92; how it waits is log 38). No directive runs
while a restart is pending (R169). How directives interleave with other commands, and a directive outside a request, are the model's (logs 5 and 6). An
operation is under way exactly while a RULE-MOVE or an ID-BURN is, and while one is, neither a request is taken nor a directive run (R54, R174). The budget
test counts the bytes of the reply message as it stands: 4, and for each record 4 and its data (R159). -/
def Obligations.RunnerRuns : Prop :=
  ((∀ s : State, opBusy s = true ↔ s.move ≠ none ∨ s.burn ≠ none) ∧
   (∀ (i : Instr) (code : Byte) (ops : List Byte) (s : State), directiveOf i = some (code, ops) → exec i s = .next (takeDirective code ops s)) ∧
   (∀ s : State, opBusy s = true ∨ blocked s = true →
     (∀ n, exec (.runnerTakeRequest n) s = .next s) ∧ ∀ i d, directiveOf i = some d → exec i s = .next s) ∧
   messageSize [] = 4 ∧ (∀ (rs : List Record) (r : Record), messageSize (rs ++ [r]) = messageSize rs + (4 + r.data.length)) ∧
   ∀ (id : BitVec 16) (status : Nat) (rs : List Record), (replyMessage id status rs).length = messageSize rs) ∧
  (∀ s n, blocked s = true → exec (.runnerTakeRequest n) s = .next s) ∧
  (∀ (s : State) (q : Request) (rest : List Request), blocked s = false → opBusy s = false → s.agent.queue = q :: rest → s.agent.run = none →
    s.agent.reply = none → (∀ h final, s.agent.hand = some h → h.kind ≠ .reply final) → s.agent.restart = none →
    exec (.runnerTakeRequest 0) s = .next (s.updAgent fun a =>
      { a with queue := rest, run := some { id := q.id, place := q.place, sa := q.sa, rest := q.dirs, records := [] } })) ∧
  (∀ (s : State) (r : Run) (d : Directive) (ds : List Directive), blocked s = false → opBusy s = false → s.agent.run = some r → r.rest = d :: ds →
    ∃ waits : Prop, (waits ↔ d.code = 0x23 ∧ { code := 0x23, outcome := .done, data := beBytes 8 s.time.toNat } ∈ r.records) ∧
    (waits → (∀ n, exec (.runnerTakeRequest n) s = .next s) ∧ ∀ ops, exec (.timeRead ops) s = .next s) ∧
    (¬ waits → 9200 < messageSize r.records + 4 + dataSize d + 4 * ds.length →
      exec (.runnerTakeRequest 1) s = .next (settle (s.updAgent fun a =>
        { a with
          run := none
          reply := some ⟨r.place, r.sa, replyMessage r.id (statusCode s) (r.records ++ (d :: ds).map fun e => ⟨e.code, .skipped, []⟩), a.restart.isSome⟩ }))) ∧
    (¬ waits → messageSize r.records + 4 + dataSize d + 4 * ds.length ≤ 9200 →
      (∀ o data t, perform (decide (ds = [])) d (taken s) = .ended o data t → exec (.runnerTakeRequest 1) s = .next (ended d.code o data t)) ∧
      ∀ t, perform (decide (ds = [])) d (taken s) = .begun t → exec (.runnerTakeRequest 1) s = .next (settle t))) ∧
  (∀ (s : State) (r : Timer) (ops : List Byte), s.agent.restart = some r →
    exec (.restart ops) s = .next s ∧ ∀ code, takeDirective code ops s = s) ∧
  (∀ (code : Byte) (o : DirOutcome) (data : List Byte) (t : State), t.agent.run = none →
    ended code o data t = settle { t with lastRecord := some { code, outcome := o, data } }) ∧
  ∀ (code : Byte) (o : DirOutcome) (data : List Byte) (t : State) (r : Run), t.agent.run = some r →
    (o = .done → r.rest ≠ [] → ended code o data t =
      settle (t.updAgent fun a => { a with run := some { r with records := r.records ++ [{ code, outcome := o, data }] } })) ∧
    (o ≠ .done ∨ r.rest = [] → ended code o data t = settle (t.updAgent fun a =>
      { a with
        run := none
        reply := some ⟨r.place, r.sa, replyMessage r.id (statusCode t) (r.records ++ ⟨code, o, data⟩ :: r.rest.map fun e => ⟨e.code, .skipped, []⟩),
          a.restart.isSome⟩ }))

/-! ### Directives: channels, keys and rollover -/

/-- CHAN-OPEN, CHAN-SET and CHAN-CLOSE: what each refuses, in the order of the checks, and what each does. CHAN-OPEN gives a CLOSED traffic channel a
complete config and zero counters; CHAN-SET changes the fields given, W above 1024 taken as 1024 and a soft limit of 0 as 1, and, with another W, marks
the whole window of each inbound slot that is not EMPTY;
CHAN-CLOSE empties every slot but a DRAINING one and removes the schedule (R19, R30 to R33). First, what a field list is, for these directives and every
other that takes one: the numbers and widths of 12.4.2, and a list is accepted exactly when it is fields of its layout one after another, each a number
byte and a value in that number's width, no number twice (R177); a field's value is its bytes as a number, the first the highest. -/
def Obligations.ChannelDirectives : Prop :=
  (configFields = [(1, 2), (2, 6), (3, 1), (4, 2), (5, 1)] ∧
    entryFields = [(1, 1), (2, 1), (3, 1), (4, 1), (5, 4), (6, 3), (7, 1), (8, 2)] ∧ portFields = [(1, 4), (2, 4), (3, 1)] ∧
    laneFields = [(1, 2), (2, 2), (3, 1), (4, 1), (5, 1)] ∧ loopFields = [(1, 1), (2, 1), (3, 1), (4, 1)] ∧ testFields = [(1, 4), (2, 2)] ∧
    ∀ layout ∈ [configFields, entryFields, portFields, laneFields, loopFields, testFields], ∀ (bytes : List Byte) (fs : FieldList),
      (fieldList layout bytes = some fs ↔
        bytes = fs.flatMap (fun f => BitVec.ofNat 8 f.1 :: f.2) ∧ (∀ f ∈ fs, (f.1, f.2.length) ∈ layout) ∧ (fs.map Prod.fst).Nodup) ∧
      (fieldList layout bytes = some fs → ∀ i : Nat,
        (∀ b, fieldBytes fs i = some b ↔ (i, b) ∈ fs) ∧ (given fs i = true ↔ ∃ b, (i, b) ∈ fs) ∧
        (∀ v, fieldNat fs i = some v ↔ ∃ b, (i, b) ∈ fs ∧ v = numAt b 0 b.length) ∧
        (flagInRange fs i = true ↔ ∀ v, fieldNat fs i = some v → v ≤ 1) ∧
        ∀ bound, fieldAtMost fs i bound = true ↔ ∀ v, fieldNat fs i = some v → v ≤ bound)) ∧
  (∀ cfg : ChanConfig, configBytes cfg = beBytes 2 cfg.window ++ beBytes 6 cfg.softLimit ++ [if cfg.auto then 1 else 0] ++ beBytes 2 cfg.grace ++
    [if cfg.returnCheck then 1 else 0]) ∧
  (∀ (ops : List Byte) (s : State), Ready codeChanOpen ops s →
    (ops.length < 2 ∨ fieldList configFields (ops.drop 2) = none →
      exec (.chanOpen ops) s = .next (ended codeChanOpen .format [] (taken s))) ∧
    ∀ fs, 2 ≤ ops.length → fieldList configFields (ops.drop 2) = some fs →
      (numAt ops 0 2 < 2 ∨ 1024 ≤ numAt ops 0 2 ∨ flagInRange fs 3 = false ∨ flagInRange fs 5 = false →
        exec (.chanOpen ops) s = .next (ended codeChanOpen .range [] (taken s))) ∧
      ∀ c : Chan, c.val = numAt ops 0 2 → 2 ≤ c.val → flagInRange fs 3 = true → flagInRange fs 5 = true →
        ((s.chan c).isOpen = true → exec (.chanOpen ops) s = .next (ended codeChanOpen .state [] (taken s))) ∧
        ((s.chan c).isOpen = false → ∃ cfg : ChanConfig, cfg.window = min ((fieldNat fs 1).getD 256) 1024 ∧
          cfg.softLimit = max ((fieldNat fs 2).getD (2 ^ 47)) 1 ∧ cfg.auto = ((fieldNat fs 3).getD 1 != 0) ∧
          cfg.grace = (fieldNat fs 4).getD 2000 ∧ cfg.returnCheck = ((fieldNat fs 5).getD 0 != 0) ∧
          exec (.chanOpen ops) s = .next (ended codeChanOpen .done (configBytes cfg) ((taken s).updChan c fun ch =>
            { ch with isOpen := true, config := cfg, counters := Vector.replicate 13 0 })))) ∧
  (∀ (ops : List Byte) (s : State), Ready codeChanSet ops s →
    (ops.length < 2 ∨ fieldList configFields (ops.drop 2) = none →
      exec (.chanSet ops) s = .next (ended codeChanSet .format [] (taken s))) ∧
    ∀ fs, 2 ≤ ops.length → fieldList configFields (ops.drop 2) = some fs →
      (1024 ≤ numAt ops 0 2 ∨ flagInRange fs 3 = false ∨ flagInRange fs 5 = false →
        exec (.chanSet ops) s = .next (ended codeChanSet .range [] (taken s))) ∧
      ∀ c : Chan, c.val = numAt ops 0 2 → flagInRange fs 3 = true → flagInRange fs 5 = true →
        ((s.chan c).isOpen = false → exec (.chanSet ops) s = .next (ended codeChanSet .state [] (taken s))) ∧
        ((s.chan c).isOpen = true → ∃ (cfg : ChanConfig) (d : Channel),
          cfg.window = ((fieldNat fs 1).map (min · 1024)).getD (s.chan c).config.window ∧
          cfg.softLimit = ((fieldNat fs 2).map (max · 1)).getD (s.chan c).config.softLimit ∧
          cfg.auto = ((fieldNat fs 3).map (· != 0)).getD (s.chan c).config.auto ∧ cfg.grace = (fieldNat fs 4).getD (s.chan c).config.grace ∧
          cfg.returnCheck = ((fieldNat fs 5).map (· != 0)).getD (s.chan c).config.returnCheck ∧
          exec (.chanSet ops) s = .next (ended codeChanSet .done (configBytes cfg) ((taken s).updChan c fun _ => d)) ∧
          d = { s.chan c with config := cfg, inA := d.inA, inB := d.inB } ∧
          ∀ x, (cfg.window = (s.chan c).config.window ∨ ((s.chan c).inSlot x).state = .empty → d.inSlot x = (s.chan c).inSlot x) ∧
            (cfg.window ≠ (s.chan c).config.window → ((s.chan c).inSlot x).state ≠ .empty →
              d.inSlot x = { (s.chan c).inSlot x with marks := (d.inSlot x).marks } ∧
              ∀ q, q ∈ (d.inSlot x).marks ↔ 1 ≤ q ∧ q ≤ ((s.chan c).inSlot x).top ∧ ((s.chan c).inSlot x).top < q + cfg.window))) ∧
  ∀ (ops : List Byte) (s : State), Ready codeChanClose ops s →
    (ops.length ≠ 2 → exec (.chanClose ops) s = .next (ended codeChanClose .format [] (taken s))) ∧
    (ops.length = 2 → numAt ops 0 2 < 2 ∨ 1024 ≤ numAt ops 0 2 →
      exec (.chanClose ops) s = .next (ended codeChanClose .range [] (taken s))) ∧
    ∀ c : Chan, ops.length = 2 → c.val = numAt ops 0 2 → 2 ≤ c.val →
      ((s.chan c).isOpen = false → exec (.chanClose ops) s = .next (ended codeChanClose .done [] (taken s))) ∧
      ((s.chan c).isOpen = true → ∃ d, exec (.chanClose ops) s = .next (ended codeChanClose .done [] ((taken s).updChan c fun _ => d)) ∧
        d.isOpen = false ∧ d.schedule = none ∧ d.config = (s.chan c).config ∧ d.counters = (s.chan c).counters ∧
        ∀ x, InCleared (d.inSlot x) ∧ (d.inSlot x).load = ((s.chan c).inSlot x).load ∧ (d.inSlot x).inFlight = ((s.chan c).inSlot x).inFlight ∧
          (((s.chan c).outSlot x).state = .draining → d.outSlot x = (s.chan c).outSlot x) ∧
          (((s.chan c).outSlot x).state ≠ .draining → OutCleared (d.outSlot x) ∧ (d.outSlot x).load = ((s.chan c).outSlot x).load ∧
            (d.outSlot x).inFlight = ((s.chan c).outSlot x).inFlight))

/-- KEY-STAGE fills the staging buffer. KEY-COMMIT is refused by the checks of R26 in their order and otherwise writes the named slot of each side the
target names, switches an EXHAUSTED channel with AUTO on, empties the staging buffer and returns the KCV. KEY-ERASE acts on the named slot by its state
(R25 to R29). -/
def Obligations.KeyDirectives : Prop :=
  (∀ (ops : List Byte) (s : State), Ready codeKeyStage ops s →
    (ops.length ≠ 37 → exec (.keyStage ops) s = .next (ended codeKeyStage .format [] (taken s))) ∧
    (ops.length = 37 → ∃ st : Staging, st.valid = true ∧ st.key.toNat = numAt ops 0 32 ∧ st.salt.toNat = numAt ops 32 4 ∧
      st.epoch.toNat = numAt ops 36 1 ∧ exec (.keyStage ops) s = .next (ended codeKeyStage .done [] { taken s with staging := st }))) ∧
  (∀ (ops : List Byte) (s : State), Ready codeKeyCommit ops s →
    (ops.length ≠ 4 → exec (.keyCommit ops) s = .next (ended codeKeyCommit .format [] (taken s))) ∧
    (ops.length = 4 → 1024 ≤ numAt ops 0 2 ∨ 2 < numAt ops 2 1 ∨ 1 < numAt ops 3 1 →
      exec (.keyCommit ops) s = .next (ended codeKeyCommit .range [] (taken s))) ∧
    ∀ (c : Chan) (out inb : Bool) (x : Letter), ops.length = 4 → c.val = numAt ops 0 2 → targetOf (numAt ops 2 1) = some (out, inb) →
      letterOf (numAt ops 3 1) = some x → ∃ refused : Prop, refused = (s.pins.zeroizeHigh = false ∨ s.staging.valid = false ∨ (s.chan c).isOpen = false ∨
        out = true ∧ inService ((s.chan c).outSlot x) ∨
        out = true ∧ inService ((s.chan c).outSlot x.other) ∧ ((s.chan c).outSlot x.other).epoch = some s.staging.epoch ∨
        inb = true ∧ ((s.chan c).inSlot x).state = .current ∨
        inb = true ∧ ((s.chan c).inSlot x.other).state ≠ .empty ∧ ((s.chan c).inSlot x.other).epoch = some s.staging.epoch) ∧
      (refused → exec (.keyCommit ops) s = .next (ended codeKeyCommit .state [] (taken s))) ∧
      (¬ refused → out = true → ((s.chan c).outSlot x).state = .draining →
        exec (.keyCommit ops) s = .next (ended codeKeyCommit .busy [] (taken s))) ∧
      (¬ refused → out = false ∨ ((s.chan c).outSlot x).state ≠ .draining →
        ∃ t kcv, kcv = kcvOf s.staging.key ∧ exec (.keyCommit ops) s = .next (ended codeKeyCommit .done (beBytes 3 kcv.toNat) t) ∧
          t.staging = { valid := false, key := 0, salt := 0, epoch := 0 } ∧ (∀ d, d ≠ c → t.chan d = s.chan d) ∧
          t.chan c = { s.chan c with outA := (t.chan c).outA, outB := (t.chan c).outB, inA := (t.chan c).inA, inB := (t.chan c).inB } ∧
          (t.chan c).inSlot x.other = (s.chan c).inSlot x.other ∧
          (inb = false → (t.chan c).inSlot x = (s.chan c).inSlot x) ∧
          (inb = true → (t.chan c).inSlot x = { (s.chan c).inSlot x with
            state := .pending, key := s.staging.key, salt := s.staging.salt, epoch := some s.staging.epoch, load := ((s.chan c).inSlot x).load + 1,
            kcv := some kcv, top := 0, marks := [], firstVerify := none, graceTimer := none }) ∧
          (out = false → (∀ y, (t.chan c).outSlot y = (s.chan c).outSlot y) ∧ t.agent.fifo = s.agent.fifo) ∧
          (out = true → ∃ switched : Bool, switched = decide ((s.chan c).config.auto = true ∧ ((s.chan c).outSlot x.other).state = .exhausted) ∧
            (t.chan c).outSlot x = { (s.chan c).outSlot x with
              state := if switched then .live else .loaded, key := s.staging.key, salt := s.staging.salt, epoch := some s.staging.epoch,
              next := .seq 1, load := ((s.chan c).outSlot x).load + 1, kcv := some kcv, switchTime := if switched then some s.time else none
              softHit := false } ∧
            (switched = false → (t.chan c).outSlot x.other = (s.chan c).outSlot x.other) ∧
            (switched = true → 0 < ((s.chan c).outSlot x.other).inFlight →
              (t.chan c).outSlot x.other = { (s.chan c).outSlot x.other with state := .draining }) ∧
            (switched = true → ((s.chan c).outSlot x.other).inFlight = 0 → OutCleared ((t.chan c).outSlot x.other) ∧
              ((t.chan c).outSlot x.other).load = ((s.chan c).outSlot x.other).load ∧ ((t.chan c).outSlot x.other).inFlight = 0) ∧
            (t.agent.fifo = if switched then addKinds c (kindBit .switched) s.agent.fifo else s.agent.fifo)) ∧
          t = { taken s with channels := t.channels, staging := t.staging, agent := { (taken s).agent with fifo := t.agent.fifo } })) ∧
  ∀ (ops : List Byte) (s : State), Ready codeKeyErase ops s →
    (ops.length ≠ 4 → exec (.keyErase ops) s = .next (ended codeKeyErase .format [] (taken s))) ∧
    (ops.length = 4 → 1024 ≤ numAt ops 0 2 ∨ 1 < numAt ops 2 1 ∨ 1 < numAt ops 3 1 →
      exec (.keyErase ops) s = .next (ended codeKeyErase .range [] (taken s))) ∧
    ∀ (c : Chan) (x : Letter), ops.length = 4 → c.val = numAt ops 0 2 → letterOf (numAt ops 3 1) = some x →
      (numAt ops 2 1 = 0 →
        (((s.chan c).outSlot x).state = .empty → exec (.keyErase ops) s = .next (ended codeKeyErase .done [] (taken s))) ∧
        (((s.chan c).outSlot x).state = .loaded → ∃ o, OutCleared o ∧ o.load = ((s.chan c).outSlot x).load ∧
          o.inFlight = ((s.chan c).outSlot x).inFlight ∧
          exec (.keyErase ops) s = .next (ended codeKeyErase .done [] ((taken s).updChan c fun ch => ch.setOut x o))) ∧
        (inService ((s.chan c).outSlot x) → exec (.keyErase ops) s = .next (ended codeKeyErase .state [] (taken s))) ∧
        (((s.chan c).outSlot x).state = .draining → exec (.keyErase ops) s = .next (ended codeKeyErase .busy [] (taken s)))) ∧
      (numAt ops 2 1 = 1 →
        (((s.chan c).inSlot x).state = .empty → exec (.keyErase ops) s = .next (ended codeKeyErase .done [] (taken s))) ∧
        (((s.chan c).inSlot x).state = .current → ((s.chan c).inSlot x.other).state = .fading →
          exec (.keyErase ops) s = .next (ended codeKeyErase .state [] (taken s))) ∧
        (((s.chan c).inSlot x).state ≠ .empty → ((s.chan c).inSlot x).state ≠ .current ∨ ((s.chan c).inSlot x.other).state ≠ .fading →
          ∃ i, InCleared i ∧ i.load = ((s.chan c).inSlot x).load ∧ i.inFlight = ((s.chan c).inSlot x).inFlight ∧
            exec (.keyErase ops) s = .next (ended codeKeyErase .done [] ((taken s).updChan c fun ch => ch.setIn x i))))

/-- SWITCH-NOW is refused STATE on a CLOSED channel or where no switch can be made, and otherwise makes it, SWITCHED set. SWITCH-AT stores a time later
than now, and otherwise removes the schedule and makes the switch or lapses with MISSED. SWITCH-CANCEL removes the schedule and reports it (R93, R98,
R99, R101). The data flag of a stored schedule is 0 (log 27). -/
def Obligations.SwitchDirectives : Prop :=
  (∀ (ops : List Byte) (s : State), Ready codeSwitchNow ops s →
    (ops.length ≠ 2 → exec (.switchNow ops) s = .next (ended codeSwitchNow .format [] (taken s))) ∧
    (ops.length = 2 → 1024 ≤ numAt ops 0 2 → exec (.switchNow ops) s = .next (ended codeSwitchNow .range [] (taken s))) ∧
    ∀ c : Chan, ops.length = 2 → c.val = numAt ops 0 2 →
      ((s.chan c).isOpen = false ∨ switchMade (s.chan c) = false → exec (.switchNow ops) s = .next (ended codeSwitchNow .state [] (taken s))) ∧
      ∀ x e, (s.chan c).isOpen = true → switchMade (s.chan c) = true → x = switchTarget (s.chan c) → ((s.chan c).outSlot x).epoch = some e →
        exec (.switchNow ops) s = .next (ended codeSwitchNow .done ([if x = .a then 0 else 1, e] ++ beBytes 8 s.time.toNat)
          (((taken s).updChan c (makeSwitch s.time)).updAgent fun a => { a with fifo := addKinds c (kindBit .switched) a.fifo }))) ∧
  (∀ (ops : List Byte) (s : State), Ready codeSwitchAt ops s →
    (ops.length ≠ 10 → exec (.switchAt ops) s = .next (ended codeSwitchAt .format [] (taken s))) ∧
    (ops.length = 10 → 1024 ≤ numAt ops 0 2 → exec (.switchAt ops) s = .next (ended codeSwitchAt .range [] (taken s))) ∧
    ∀ (c : Chan) (t : Time), ops.length = 10 → c.val = numAt ops 0 2 → t.toNat = numAt ops 2 8 →
      ((s.chan c).isOpen = false → exec (.switchAt ops) s = .next (ended codeSwitchAt .state [] (taken s))) ∧
      ((s.chan c).isOpen = true → s.time < t → exec (.switchAt ops) s =
        .next (ended codeSwitchAt .done (beBytes 8 t.toNat ++ [0]) ((taken s).updChan c fun ch => { ch with schedule := some t }))) ∧
      ((s.chan c).isOpen = true → t ≤ s.time → switchMade (s.chan c) = true → exec (.switchAt ops) s =
        .next (ended codeSwitchAt .done (beBytes 8 s.time.toNat ++ [1])
          (((taken s).updChan c fun ch => { makeSwitch s.time ch with schedule := none }).updAgent fun a =>
            { a with fifo := addKinds c (kindBit .switched) a.fifo }))) ∧
      ((s.chan c).isOpen = true → t ≤ s.time → switchMade (s.chan c) = false → exec (.switchAt ops) s =
        .next (ended codeSwitchAt .done (beBytes 8 s.time.toNat ++ [0])
          (((taken s).updChan c fun ch => { ch with schedule := none }).updAgent fun a => { a with fifo := addKinds c (kindBit .missed) a.fifo })))) ∧
  ∀ (ops : List Byte) (s : State), Ready codeSwitchCancel ops s →
    (ops.length ≠ 2 → exec (.switchCancel ops) s = .next (ended codeSwitchCancel .format [] (taken s))) ∧
    (ops.length = 2 → 1024 ≤ numAt ops 0 2 → exec (.switchCancel ops) s = .next (ended codeSwitchCancel .range [] (taken s))) ∧
    ∀ c : Chan, ops.length = 2 → c.val = numAt ops 0 2 →
      exec (.switchCancel ops) s = .next (ended codeSwitchCancel .done (beBytes 8 (((s.chan c).schedule.map (·.toNat)).getD 0))
        ((taken s).updChan c fun ch => { ch with schedule := none }))

/-! ### Directives: the classifier -/

/-- RULE-WRITE and RULE-PATCH: what each refuses, with the ranges of R50 and R177, and the entry each writes to the SHADOW bank, the fields given over
the write defaults or over the entry as it stands. The record reports the entry; the type bytes of an absent type match are a free value (log 12), and
the model takes another one next time (R39, R50, R51, R177). -/
def Obligations.RuleEdits : Prop :=
  ∀ (i : Instr) (code : Byte) (base : State → Fin 256 → Entry) (ops : List Byte) (s : State),
    (i = .ruleWrite ops ∧ code = codeRuleWrite ∧
        (∀ t j, base t j = { valid := true, direction := .both, ports := 0xF, vlan := .any, etype := none, action := .discard }) ∨
      i = .rulePatch ops ∧ code = codeRulePatch ∧ ∀ t j, base t j = t.shadow[j]) →
    Ready code ops s →
    (ops.length < 2 ∨ fieldList entryFields (ops.drop 2) = none → exec i s = .next (ended code .format [] (taken s))) ∧
    ∀ fs, 2 ≤ ops.length → fieldList entryFields (ops.drop 2) = some fs →
      (¬ (given fs 5 = true ↔ fieldNat fs 4 = some 2) ∨ ¬ (given fs 8 = true ↔ fieldNat fs 7 = some 0) →
        exec i s = .next (ended code .format [] (taken s))) ∧
      ((given fs 5 = true ↔ fieldNat fs 4 = some 2) → (given fs 8 = true ↔ fieldNat fs 7 = some 0) →
        (entryRange fs = true ↔
          (∀ v, fieldNat fs 1 = some v → v ≤ 1) ∧ (∀ v, fieldNat fs 2 = some v → v ≤ 2) ∧ (∀ v, fieldNat fs 3 = some v → v ≤ 15) ∧
          (∀ v, fieldNat fs 4 = some v → v ≤ 2) ∧ (∀ b, fieldBytes fs 5 = some b → numAt b 0 2 ≤ numAt b 2 2 ∧ numAt b 2 2 ≤ 4095) ∧
          (∀ b, fieldBytes fs 6 = some b → numAt b 0 1 ≤ 1) ∧ (∀ v, fieldNat fs 7 = some v → v ≤ 2) ∧
          (∀ v, fieldNat fs 8 = some v → 2 ≤ v ∧ v ≤ 1023)) ∧
        (256 ≤ numAt ops 0 2 ∨ entryRange fs = false → exec i s = .next (ended code .range [] (taken s))) ∧
        ∀ j : Fin 256, j.val = numAt ops 0 2 → entryRange fs = true → ∃ e : Entry,
          e.valid = ((fieldNat fs 1).map (· != 0)).getD (base s j).valid ∧
          e.direction = ((fieldNat fs 2).map directionOf).getD (base s j).direction ∧
          e.ports = ((fieldNat fs 3).map (BitVec.ofNat 4)).getD (base s j).ports ∧
          (fieldNat fs 4 = none → e.vlan = (base s j).vlan) ∧ (fieldNat fs 4 = some 0 → e.vlan = .untagged) ∧ (fieldNat fs 4 = some 1 → e.vlan = .any) ∧
          (∀ b, fieldNat fs 4 = some 2 → fieldBytes fs 5 = some b → e.vlan = .range (BitVec.ofNat 12 (numAt b 0 2)) (BitVec.ofNat 12 (numAt b 2 2))) ∧
          e.etype = ((fieldBytes fs 6).map fun b => if numAt b 0 1 = 0 then none else some (BitVec.ofNat 16 (numAt b 1 2))).getD (base s j).etype ∧
          (fieldNat fs 7 = none → e.action = (base s j).action) ∧ (fieldNat fs 7 = some 1 → e.action = .bypass) ∧
          (fieldNat fs 7 = some 2 → e.action = .discard) ∧ (∀ c : Chan, fieldNat fs 7 = some 0 → fieldNat fs 8 = some c.val → e.action = .protect c) ∧
          exec i s = .next (ended code .done (beBytes 2 j.val ++ entryBytes (Config.absentType s.free) e)
            { taken s with shadow := s.shadow.set j e, free := s.free + 1 }))

/-- RULE-CLEAR refuses a count of 0 and what lies beyond the bank, and otherwise puts the entries first to first + count − 1 in the cleared form and no
other; a bank cleared whole and put in service gives NO-MATCH to every lookup (R52). -/
def Obligations.RuleClear : Prop :=
  ∀ (ops : List Byte) (s : State) (first count : Nat), Ready codeRuleClear ops s → ops.length = 4 → first = numAt ops 0 2 → count = numAt ops 2 2 →
    (count = 0 ∨ 255 < first ∨ 256 < first + count → exec (.ruleClear ops) s = .next (ended codeRuleClear .range [] (taken s))) ∧
    (0 < count → first + count ≤ 256 → ∃ b : Bank, exec (.ruleClear ops) s = .next (ended codeRuleClear .done [] { taken s with shadow := b }) ∧
      (∀ i : Fin 256, first ≤ i.val → i.val < first + count →
        b[i] = { valid := false, direction := .both, ports := 0xF, vlan := .any, etype := none, action := .discard }) ∧
      (∀ i : Fin 256, i.val < first ∨ first + count ≤ i.val → b[i] = s.shadow[i]) ∧
      (first = 0 → count = 256 → ∀ t : State, t.shadow = b → ∀ u pos inner, (beginLookup (commitTable t) u pos inner).verdict = .noMatch))

/-- RULE-MOVE refuses a bad direction, a count of 0 and ranges beyond the bank, and otherwise begins an operation. Its completion leaves in the
destination range the source range as it stood when the direction does not copy toward entries not yet read; UP with dst above src repeats the first
dst − src entries of the source over and over, and DOWN with dst below src the last src − dst, from the top downward. Every other entry is as it was, and
the directive ends DONE (R54). All copies are made at the completion (log 9). -/
def Obligations.RuleMove : Prop :=
  (∀ (ops : List Byte) (s : State), Ready codeRuleMove ops s →
    (ops.length ≠ 7 → exec (.ruleMove ops) s = .next (ended codeRuleMove .format [] (taken s))) ∧
    (ops.length = 7 → 1 < numAt ops 6 1 ∨ numAt ops 4 2 = 0 ∨ 256 < numAt ops 0 2 + numAt ops 4 2 ∨ 256 < numAt ops 2 2 + numAt ops 4 2 →
      exec (.ruleMove ops) s = .next (ended codeRuleMove .range [] (taken s))) ∧
    ∀ m : Move, ops.length = 7 → m.src = numAt ops 0 2 → m.dst = numAt ops 2 2 → m.count = numAt ops 4 2 →
      (numAt ops 6 1 = 0 ∧ m.up = true ∨ numAt ops 6 1 = 1 ∧ m.up = false) → 0 < m.count → m.src + m.count ≤ 256 → m.dst + m.count ≤ 256 →
      exec (.ruleMove ops) s = .next (settle { taken s with move := some m })) ∧
  ∀ (m : Move) (s : State), s.move = some m → m.src + m.count ≤ 256 → m.dst + m.count ≤ 256 →
    ∃ b, exec .ruleMoveCompletion s = .next (ended codeRuleMove .done [] { s with move := none, shadow := b }) ∧
      (∀ j : Fin 256, j.val < m.dst ∨ m.dst + m.count ≤ j.val → b[j] = s.shadow[j]) ∧
      (m.up = true ∧ m.dst ≤ m.src ∨ m.up = false ∧ m.src ≤ m.dst ∨ m.src + m.count ≤ m.dst ∨ m.dst + m.count ≤ m.src →
        ∀ i j : Fin 256, m.dst ≤ j.val → j.val < m.dst + m.count → i.val = m.src + (j.val - m.dst) → b[j] = s.shadow[i]) ∧
      (m.up = true → m.src < m.dst → ∀ i j : Fin 256, m.dst ≤ j.val → j.val < m.dst + m.count →
        i.val = m.src + (j.val - m.dst) % (m.dst - m.src) → b[j] = s.shadow[i]) ∧
      (m.up = false → m.dst < m.src → ∀ i j : Fin 256, m.dst ≤ j.val → j.val < m.dst + m.count →
        i.val + 1 + (m.dst + m.count - 1 - j.val) % (m.src - m.dst) = m.src + m.count → b[j] = s.shadow[i])

/-- TABLE-COMMIT makes the SHADOW bank ACTIVE, keeps it as SHADOW, sets every hit counter to 0 and reports the valid entries. Lookups that began before
end as they would have, and count no hit (R44, R55; the number by which the model knows the bank is its own, log 7). -/
def Obligations.TableCommit : Prop :=
  ∀ (ops : List Byte) (s : State), Ready codeTableCommit ops s →
    (ops ≠ [] → exec (.tableCommit ops) s = .next (ended codeTableCommit .format [] (taken s))) ∧
    (ops = [] → ∃ t, exec (.tableCommit ops) s = .next (ended codeTableCommit .done (beBytes 2 (s.shadow.toList.countP (·.valid))) t) ∧
      t.active = s.shadow ∧ t.shadow = s.shadow ∧ (∀ i : Fin 256, t.hits[i] = 0) ∧
      (∀ u pos inner, countHit (beginLookup s u pos inner) t = t) ∧
      t = { taken s with active := t.active, hits := t.hits, bankGen := t.bankGen })

/-- TABLE-REVERT copies the ACTIVE bank over the SHADOW bank, changes neither the ACTIVE bank nor a hit counter, and ends DONE without data (R56). -/
def Obligations.TableRevert : Prop :=
  ∀ (s : State), Ready codeTableRevert [] s →
    ∃ t, exec (.tableRevert []) s = .next (ended codeTableRevert .done [] t) ∧ (∀ i : Fin 256, t.shadow[i] = s.active[i]) ∧
      t.active = s.active ∧ t.hits = s.hits ∧ t = { taken s with shadow := t.shadow }

/-! ### Directives: ports and lanes -/

/-- PORT-SET clamps XOFF to 9,244..515,044 and XON to 0..XOFF − 1, writes pause enable, and judges the pause record against the occupancy as it stands
(R110, R111, R114). LANE-SET refuses as R138 orders, and otherwise writes the settings given, clamped, and in the RACK role runs the arbiter once on
them, which judges every class afresh: a selected lane that loses FORCE or MANUAL and is not FAIL is NONE, one that loses FAIL waits with the WTR timer
started. It reports the five settings and the selection that results (R131 to R135, R138). The timer counts microseconds (log 8). -/
def Obligations.PortAndLaneSettings : Prop :=
  (∀ (ops : List Byte) (s : State), Ready codePortSet ops s →
     (ops.length < 1 ∨ fieldList portFields (ops.drop 1) = none → exec (.portSet ops) s = .next (ended codePortSet .format [] (taken s))) ∧
     ∀ fs, 1 ≤ ops.length → fieldList portFields (ops.drop 1) = some fs →
       (4 ≤ numAt ops 0 1 ∨ flagInRange fs 3 = false → exec (.portSet ops) s = .next (ended codePortSet .range [] (taken s))) ∧
       ∀ n : PortId, n.val = numAt ops 0 1 → flagInRange fs 3 = true →
         ∃ (xoff xon : Nat) (enable : Bool) (p : Port), xoff = ((fieldNat fs 1).map fun v => max 9244 (min 515044 v)).getD (s.port n).xoff ∧
           xon = min ((fieldNat fs 2).getD (s.port n).xon) (xoff - 1) ∧ enable = ((fieldNat fs 3).map (· != 0)).getD (s.port n).pauseEnable ∧
           exec (.portSet ops) s = .next (ended codePortSet .done ([BitVec.ofNat 8 n.val] ++ beBytes 4 xoff ++ beBytes 4 xon ++ [if enable then 1 else 0])
             ((taken s).updPort n fun _ => p)) ∧
           p = { s.port n with xoff, xon, pauseEnable := enable, inForce := p.inForce, pendingPause := p.pendingPause, refresh := p.refresh } ∧
           (enable = true ∧ (s.port n).inForce = false ∧ xoff ≤ bufOccupancy (s.port n) → p.inForce = true ∧ p.pendingPause = .on ∧
             p.refresh = (s.port n).refresh) ∧
           ((s.port n).inForce = true ∧ (enable = false ∨ bufOccupancy (s.port n) ≤ xon) → p.inForce = false ∧ p.refresh = none ∧
             p.pendingPause = if (s.port n).announced then .off else .none) ∧
           ((s.port n).inForce = false ∧ (enable = false ∨ bufOccupancy (s.port n) < xoff) ∨
               (s.port n).inForce = true ∧ enable = true ∧ xon < bufOccupancy (s.port n) →
             p.inForce = (s.port n).inForce ∧ p.pendingPause = (s.port n).pendingPause ∧ p.refresh = (s.port n).refresh)) ∧
  (∀ (ops : List Byte) (s : State), Ready codeLaneSet ops s →
     (fieldList laneFields ops = none → exec (.laneSet ops) s = .next (ended codeLaneSet .format [] (taken s))) ∧
     ∀ fs, fieldList laneFields ops = some fs →
       ∃ bad : Prop, bad = (flagInRange fs 3 = false ∨ ∃ i v, (i = 4 ∨ i = 5) ∧ fieldNat fs i = some v ∧ 4 ≤ v ∧ v ≠ 255) ∧
       (bad → exec (.laneSet ops) s = .next (ended codeLaneSet .range [] (taken s))) ∧
       (¬ bad → s.role = .campus → given fs 3 = true ∨ given fs 4 = true ∨ given fs 5 = true →
         exec (.laneSet ops) s = .next (ended codeLaneSet .state [] (taken s))) ∧
       (¬ bad → s.role = .rack ∨ given fs 3 = false ∧ given fs 4 = false ∧ given fs 5 = false →
         ∃ t, exec (.laneSet ops) s = .next (ended codeLaneSet .done (beBytes 2 t.prot.interval ++ beBytes 2 t.prot.wtrSetting ++
             [if t.prot.lockout then 1 else 0, portOrNone t.prot.force, portOrNone t.prot.manual, portOrNone t.prot.selection]) t) ∧
           t.prot.interval = ((fieldNat fs 1).map fun v => max 1 (min 1000 v)).getD s.prot.interval ∧
           t.prot.wtrSetting = ((fieldNat fs 2).map fun v => min v 3600).getD s.prot.wtrSetting ∧
           t.prot.lockout = ((fieldNat fs 3).map (· != 0)).getD s.prot.lockout ∧
           t.prot.force = ((fieldNat fs 4).map portIdOf).getD s.prot.force ∧ t.prot.manual = ((fieldNat fs 5).map portIdOf).getD s.prot.manual ∧
           (∃ u, u = { taken s with prot := { s.prot with
               interval := t.prot.interval, wtrSetting := t.prot.wtrSetting, lockout := t.prot.lockout, force := t.prot.force, manual := t.prot.manual } } ∧
             (s.role = .rack → ArbiterRan u t) ∧ (s.role = .campus → t = u)) ∧
           (∀ k, (t.lane k).state = (s.lane k).state ∧ (t.lane k).loopMode = (s.lane k).loopMode ∧ (t.lane k).control = (s.lane k).control ∧
             (t.lane k).beaconTimer = (s.lane k).beaconTimer ∧ (t.lane k).continuity = (s.lane k).continuity) ∧
           t = { taken s with lanes := t.lanes, prot := t.prot, agent := t.agent }))

/-- LOOP-SET refuses as R144 orders, and otherwise begins or ends a loopback of its lane, writes the loop field, auto-accept and persistence, and ends a
loop run where R144 says so; the end of LINE discards and counts the return queue and sets LOOP, CIPHER sets no LOOP, and a change of L4's loop mode runs
the arbiter of a RACK part once (R129, R131, R144 to R146). It reports the lane and its five loop items, a run of none as code 0 with a start of all ones
(R143, R144, R177). TEST-SET clamps the rate and the inner length given; on starts the stream afresh and clears the
checker, off stops the generator; the rate timer runs for 1000000 / rate whole microseconds, rounded down (log 8). TEST-INJECT marks the next test frame
of a generator that is on, and is refused STATE on another (R149, R151, R153). -/
def Obligations.LoopAndTestDirectives : Prop :=
  (∀ (k : LaneId) (l : Lane) (d : List Byte), d = loopSetBytes k l →
    d.length = 14 ∧ FieldAt d 0 1 k.val ∧
    FieldAt d 1 1 (match l.loopMode with
      | .none => 0
      | .line => 1
      | .cipher => 2) ∧
    FieldAt d 2 1 (loopCode l.loopField) ∧ FieldAt d 3 1 l.autoAccept.toNat ∧ FieldAt d 4 1 l.persistence ∧
    FieldAt d 5 1 ((l.loopRun.map fun r => loopCode r.1).getD 0) ∧ TimeAt d 6 (l.loopRun.map (·.2))) ∧
  (∀ (ops : List Byte) (s : State), Ready codeLoopSet ops s →
     (ops.length < 1 ∨ fieldList loopFields (ops.drop 1) = none → exec (.loopSet ops) s = .next (ended codeLoopSet .format [] (taken s))) ∧
     ∀ fs, 1 ≤ ops.length → fieldList loopFields (ops.drop 1) = some fs →
       (5 ≤ numAt ops 0 1 ∨ fieldAtMost fs 1 1 = false ∨ fieldAtMost fs 2 2 = false ∨ flagInRange fs 3 = false →
         exec (.loopSet ops) s = .next (ended codeLoopSet .range [] (taken s))) ∧
       ∀ k : LaneId, k.val = numAt ops 0 1 → fieldAtMost fs 1 1 = true → fieldAtMost fs 2 2 = true → flagInRange fs 3 = true →
         (fieldNat fs 1 = some 1 → (s.lane k).loopMode = .line ∨ k = 4 ∧ bridged s ≠ none →
           exec (.loopSet ops) s = .next (ended codeLoopSet .state [] (taken s))) ∧
         (fieldNat fs 1 ≠ some 1 ∨ (s.lane k).loopMode ≠ .line ∧ (k ≠ 4 ∨ bridged s = none) →
           ∃ (t u : State) (begins endsLine endsCipher : Bool),
             exec (.loopSet ops) s = .next (ended codeLoopSet .done (loopSetBytes k (t.lane k)) t) ∧
             begins = (fieldNat fs 1 == some 1 && (s.lane k).loopMode == .none) ∧ endsLine = (fieldNat fs 1 == some 0 && (s.lane k).loopMode == .line) ∧
             endsCipher = (fieldNat fs 1 == some 0 && (s.lane k).loopMode == .cipher) ∧
             (u.lane k).loopMode = (match fieldNat fs 1 with
               | none => (s.lane k).loopMode
               | some 0 => .none
               | some _ => .cipher) ∧
             (u.lane k).loopField = (match fieldNat fs 2 with
               | none => (s.lane k).loopField
               | some 0 => .none
               | some 1 => .request
               | some _ => .release) ∧
             (u.lane k).autoAccept = ((fieldNat fs 3).map (· != 0)).getD (s.lane k).autoAccept ∧
             (u.lane k).persistence = ((fieldNat fs 4).map fun v => max 1 (min 60 v)).getD (s.lane k).persistence ∧
             (u.lane k).loopRun = (if begins ∨ endsLine ∨ fieldNat fs 2 = some 1 ∨ fieldNat fs 3 = some 0 then none else (s.lane k).loopRun) ∧
             (u.lane k).peerRun = (if begins then 0 else (s.lane k).peerRun) ∧
             (u.lane k).continuity = (if begins then none
               else if endsCipher ∧ (s.lane k).state ≠ .los then some { start := s.time, len := 350 * s.prot.interval } else (s.lane k).continuity) ∧
             (u.lane k).returnQueue = (if endsLine then [] else (s.lane k).returnQueue) ∧
             (u.lane k).counters = (if endsLine then (s.lane k).count .loopOverrun (s.lane k).returnQueue.length else s.lane k).counters ∧
             u.lane k = { s.lane k with
               loopMode := (u.lane k).loopMode, loopField := (u.lane k).loopField, autoAccept := (u.lane k).autoAccept
               persistence := (u.lane k).persistence, loopRun := (u.lane k).loopRun, peerRun := (u.lane k).peerRun
               continuity := (u.lane k).continuity, returnQueue := (u.lane k).returnQueue, counters := (u.lane k).counters } ∧
             (∀ j, j ≠ k → u.lane j = s.lane j) ∧
             u = { taken s with
               lanes := u.lanes
               agent := { (taken s).agent with devices := s.agent.devices ||| (if endsLine then kindBit .loop else 0) } } ∧
             (k = 4 → s.role = .rack → begins ∨ endsLine ∨ endsCipher → ArbiterRan u t) ∧
             (k ≠ 4 ∨ s.role = .campus ∨ (begins || endsLine || endsCipher) = false → t = u) ∧
             (∀ j, (t.lane j).state = (s.lane j).state ∧ (t.lane j).control = (s.lane j).control ∧ (t.lane j).loopMode = (u.lane j).loopMode) ∧
             t = { taken s with lanes := t.lanes, prot := t.prot, agent := t.agent })) ∧
  ((∀ (ops : List Byte) (s : State), Ready codeTestSet ops s →
     (ops.length < 2 ∨ fieldList testFields (ops.drop 2) = none → exec (.testSet ops) s = .next (ended codeTestSet .format [] (taken s))) ∧
     ∀ fs, 2 ≤ ops.length → fieldList testFields (ops.drop 2) = some fs →
       (5 ≤ numAt ops 0 1 ∨ 2 ≤ numAt ops 1 1 → exec (.testSet ops) s = .next (ended codeTestSet .range [] (taken s))) ∧
       ∀ (k : LaneId) (on : Bool), k.val = numAt ops 0 1 → numAt ops 1 1 = (if on then 1 else 0) →
         ∃ rate len : Nat, rate = ((fieldNat fs 1).map fun v => max 1 (min 100000 v)).getD (s.lane k).rate ∧
           len = ((fieldNat fs 2).map fun v => max 64 (min 1500 v)).getD (s.lane k).innerLen ∧
           exec (.testSet ops) s = .next (ended codeTestSet .done ([BitVec.ofNat 8 k.val, if on then 1 else 0] ++ beBytes 4 rate ++ beBytes 2 len)
             ((taken s).updLane k fun l =>
               if on then { l with
                 genOn := true, rate := rate, innerLen := len, pattern := BitVec.allOnes 23, inject := .none
                 rateTimer := some { start := s.time, len := 1000000 / rate }, locked := false, goodRun := 0, judged := [] }
               else { l with genOn := false, rate := rate, innerLen := len, inject := .none, rateTimer := none }))) ∧
   ∀ (ops : List Byte) (s : State), Ready codeTestInject ops s →
     (ops.length ≠ 2 → exec (.testInject ops) s = .next (ended codeTestInject .format [] (taken s))) ∧
     (ops.length = 2 → 5 ≤ numAt ops 0 1 ∨ 2 ≤ numAt ops 1 1 → exec (.testInject ops) s = .next (ended codeTestInject .range [] (taken s))) ∧
     ∀ k : LaneId, ops.length = 2 → k.val = numAt ops 0 1 → numAt ops 1 1 ≤ 1 →
       ((s.lane k).genOn = false → exec (.testInject ops) s = .next (ended codeTestInject .state [] (taken s))) ∧
       ((s.lane k).genOn = true → exec (.testInject ops) s = .next (ended codeTestInject .done []
         ((taken s).updLane k fun l => { l with inject := if numAt ops 1 1 = 0 then .pattern else .tag }))))

/-! ### Directives: the agent and the identity store -/

/-- A count goes up by what is counted and stays at 2^48 − 1, and moves no other counter; the counters stand in the orders of R20, R61 and R119, of R90,
R141 and R154, and of R163. COUNT-SWEEP returns the number and the thirteen counters of n channels from the start upward, 0 following 1023, and the next index; with clear each
is set to 0 as it is read, and nothing else of any channel changes (R162). PORT-COUNTS returns, for n places from the start on, the port, lane or agent
data of R163, laid out as ReadLayouts says, and the next index; with clear the counters of each place read are set to 0 and nothing else changes (R163).
The next index stands at the end of the data (log 17). -/
def Obligations.CounterDirectives : Prop :=
  ((∀ (c : Counter) (k : Nat), (addCounter c k).toNat = min (c.toNat + k) (2 ^ 48 - 1)) ∧
   (∀ (ch : Channel) (c d : ChanCtr) (k : Nat), (ch.count c k).ctr d = if d = c then addCounter (ch.ctr d) k else ch.ctr d) ∧
   (∀ (p : Port) (c d : PortCtr) (k : Nat), (p.count c k).ctr d = if d = c then addCounter (p.ctr d) k else p.ctr d) ∧
   (∀ (l : Lane) (c d : LaneCtr) (k : Nat), (l.count c k).ctr d = if d = c then addCounter (l.ctr d) k else l.ctr d) ∧
   (∀ (a : Agent) (c d : AgentCtr) (k : Nat), (a.count c k).ctr d = if d = c then addCounter (a.ctr d) k else a.ctr d) ∧
   (∀ ch : Channel, ch.counters.toList = [ChanCtr.protectedFrames, .protectedOctets, .droppedNoKey, .droppedHalted, .droppedZeroized, .verifiedFrames,
     .verifiedOctets, .authFail, .replay, .late, .unknownEpoch, .stale, .returnMismatch].map ch.ctr) ∧
   (∀ p : Port, p.counters.toList = [PortCtr.framesReceived, .octetsReceived, .badFcs, .undersize, .oversize, .pauseReceived, .controlDropped, .malformed,
     .toAgent, .noMatch, .discarded, .bypassBlocked, .protectRefused, .protectDropped, .protectedSent, .bypassed, .overflow, .pauseSent, .releaseSent,
     .deliveryOverflow, .sentFrames, .sentOctets].map p.ctr) ∧
   (∀ l : Lane, l.counters.toList = [LaneCtr.framesReceived, .octetsReceived, .badFcs, .undersize, .oversize, .malformed, .controlDropped, .foreign,
     .mgmtTransit, .unselected, .ownDropped, .ownVerified, .ownFailed, .delivered, .noMatch, .discarded, .bypassBlocked, .framesSent, .octetsSent,
     .bufferFramesSent, .beaconsSent, .lostOnSwitch, .beaconWithheld, .beaconSkipped, .testSkipped, .peerBeacons, .ownBeacons, .beaconsIgnored,
     .continuityLosses, .loopOverrun, .testGenerated, .testWithheld, .testGood, .testBad].map l.ctr) ∧
   ∀ a : Agent, a.counters.toList = [AgentCtr.requestsTaken, .requestOverflow, .requestMalformed, .clearRefused, .notRequest, .repliesSent, .replyLost,
     .noticesSent, .noticeLost].map a.ctr) ∧
  (∀ (ops : List Byte) (s : State), Ready codeCountSweep ops s →
     (ops.length ≠ 4 → exec (.countSweep ops) s = .next (ended codeCountSweep .format [] (taken s))) ∧
     (ops.length = 4 → 1024 ≤ numAt ops 0 2 ∨ numAt ops 2 1 = 0 ∨ 16 < numAt ops 2 1 ∨ 2 ≤ numAt ops 3 1 →
       exec (.countSweep ops) s = .next (ended codeCountSweep .range [] (taken s))) ∧
     ∀ (start n : Nat) (clear : Bool), ops.length = 4 → start = numAt ops 0 2 → start < 1024 → n = numAt ops 2 1 → 1 ≤ n → n ≤ 16 →
       numAt ops 3 1 = (if clear then 1 else 0) →
       ∃ t, exec (.countSweep ops) s = .next (ended codeCountSweep .done
           ((List.range n).flatMap (fun i => beBytes 2 ((start + i) % 1024) ++ counterBytes (s.chan (Fin.ofNat 1024 (start + i))).counters) ++
             beBytes 2 ((start + n) % 1024)) t) ∧
         (∀ c : Chan, t.chan c = if clear = true ∧ (∃ i, i < n ∧ c.val = (start + i) % 1024)
           then { s.chan c with counters := Vector.replicate 13 0 } else s.chan c) ∧ t = { taken s with channels := t.channels }) ∧
  (∀ (ops : List Byte) (s : State), Ready codePortCounts ops s →
     (ops.length ≠ 3 → exec (.portCounts ops) s = .next (ended codePortCounts .format [] (taken s))) ∧
     (ops.length = 3 → 9 < numAt ops 0 1 ∨ numAt ops 1 1 = 0 ∨ 10 < numAt ops 1 1 ∨ 2 ≤ numAt ops 2 1 →
       exec (.portCounts ops) s = .next (ended codePortCounts .range [] (taken s))) ∧
     ∀ (start n : Nat) (clear : Bool) (read : Nat → Prop), ops.length = 3 → start = numAt ops 0 1 → start ≤ 9 → n = numAt ops 1 1 → 1 ≤ n → n ≤ 10 →
       numAt ops 2 1 = (if clear then 1 else 0) → (∀ p, read p ↔ clear = true ∧ ∃ i, i < n ∧ p = (start + i) % 10) →
       ∃ t, exec (.portCounts ops) s = .next (ended codePortCounts .done
           ((List.range n).flatMap (fun i => (readPlace false ((start + i) % 10) (taken s)).1) ++ [BitVec.ofNat 8 ((start + n) % 10)]) t) ∧
         (∀ m : PortId, (read m.val → t.port m = { s.port m with counters := Vector.replicate 22 0 }) ∧ (¬ read m.val → t.port m = s.port m)) ∧
         (∀ k : LaneId, (read (k.val + 4) → t.lane k = { s.lane k with counters := Vector.replicate 34 0 }) ∧ (¬ read (k.val + 4) → t.lane k = s.lane k)) ∧
         (read 9 → t.agent = { (taken s).agent with counters := Vector.replicate 9 0 }) ∧ (¬ read 9 → t.agent = (taken s).agent) ∧
         t = { taken s with ports := t.ports, lanes := t.lanes, agent := t.agent })

/-- CHAN-READ, TIME-READ, STATUS-READ and RULE-READ refuse FORMAT and RANGE, and otherwise report what their rules list, laid out as ReadLayouts says,
and change nothing; of RULE-READ the type bytes of an absent type match are a free value (log 12), of which the model takes another one next time (R34,
R53, R92, R164). -/
def Obligations.ReadDirectives : Prop :=
  (∀ (ops : List Byte) (s : State), Ready codeChanRead ops s →
    (ops.length ≠ 2 → exec (.chanRead ops) s = .next (ended codeChanRead .format [] (taken s))) ∧
    (ops.length = 2 → 1024 ≤ numAt ops 0 2 → exec (.chanRead ops) s = .next (ended codeChanRead .range [] (taken s))) ∧
    ∀ c : Chan, ops.length = 2 → c.val = numAt ops 0 2 → exec (.chanRead ops) s = .next (ended codeChanRead .done (chanReadBytes s.time (s.chan c)) (taken s))) ∧
  (∀ (ops : List Byte) (s : State), Ready codeTimeRead ops s →
    exec (.timeRead ops) s = .next (if ops = [] then ended codeTimeRead .done (beBytes 8 s.time.toNat) (taken s) else ended codeTimeRead .format [] (taken s))) ∧
  (∀ (ops : List Byte) (s : State), Ready codeStatusRead ops s →
    exec (.statusRead ops) s = .next (if ops = [] then ended codeStatusRead .done (statusBytes (taken s)) (taken s)
      else ended codeStatusRead .format [] (taken s))) ∧
  ∀ (ops : List Byte) (s : State), Ready codeRuleRead ops s →
    (ops.length ≠ 3 → exec (.ruleRead ops) s = .next (ended codeRuleRead .format [] (taken s))) ∧
    (ops.length = 3 → 2 ≤ numAt ops 0 1 ∨ 256 ≤ numAt ops 1 2 → exec (.ruleRead ops) s = .next (ended codeRuleRead .range [] (taken s))) ∧
    ∀ i : Fin 256, ops.length = 3 → i.val = numAt ops 1 2 →
      (numAt ops 0 1 = 0 → exec (.ruleRead ops) s = .next (ended codeRuleRead .done
        ([0] ++ beBytes 2 i.val ++ entryBytes (Config.absentType s.free) s.active[i] ++ beBytes 6 s.hits[i].toNat) { taken s with free := s.free + 1 })) ∧
      (numAt ops 0 1 = 1 → exec (.ruleRead ops) s = .next (ended codeRuleRead .done
        ([1] ++ beBytes 2 i.val ++ entryBytes (Config.absentType s.free) s.shadow[i]) { taken s with free := s.free + 1 }))

/-- Where the data of the read directives holds what (12.4.3, R177). CHAN-READ: state, config, schedule or 0, the four slots at 27 and 33 bytes each and
the thirteen counters, with the grace remaining of a FADING slot in milliseconds, rounded up (R34). STATUS-READ: part state and code, role, LOCK, time,
the five lanes at 34 bytes each, the protection controller, the agent, with the WTR time left in seconds, rounded up, or all ones (R164). A place of
PORT-COUNTS: its number, its counters and its present state (R163). An entry record (12.4.1), of which the type bytes of an absent match are a free value
(log 12); a reply with its outcome records (12.3); a notice with its snapshot and its entries (12.3, 12.5); a pause frame (R115, 12.6), with the FCS of
log 4. Timers are read by the time counter (log 8). -/
def Obligations.ReadLayouts : Prop :=
  ((∀ (x : BitVec 16) (e : Entry) (d : List Byte), d = entryBytes x e →
     d.length = 14 ∧ FieldAt d 0 1 e.valid.toNat ∧
     FieldAt d 1 1 (match e.direction with
       | .out => 0
       | .inb => 1
       | .both => 2) ∧
     FieldAt d 2 1 e.ports.toNat ∧ (e.vlan = .untagged → FieldAt d 3 1 0 ∧ FieldAt d 4 4 0) ∧ (e.vlan = .any → FieldAt d 3 1 1 ∧ FieldAt d 4 4 0) ∧
     (∀ lo hi, e.vlan = .range lo hi → FieldAt d 3 1 2 ∧ FieldAt d 4 2 lo.toNat ∧ FieldAt d 6 2 hi.toNat) ∧
     (e.etype = none → FieldAt d 8 1 0 ∧ FieldAt d 9 2 x.toNat) ∧ (∀ v, e.etype = some v → FieldAt d 8 1 1 ∧ FieldAt d 9 2 v.toNat) ∧
     (∀ c, e.action = .protect c → FieldAt d 11 1 0 ∧ FieldAt d 12 2 c.val) ∧ (e.action = .bypass → FieldAt d 11 1 1 ∧ FieldAt d 12 2 0) ∧
     (e.action = .discard → FieldAt d 11 1 2 ∧ FieldAt d 12 2 0)) ∧
   (∀ (id : BitVec 16) (status : Nat) (records : List Record) (size : List Record → Nat) (d : List Byte), d = replyMessage id status records →
     (∀ l, size l = (l.map fun r => 4 + r.data.length).sum) →
     d.length = 4 + size records ∧ FieldAt d 0 2 id.toNat ∧ FieldAt d 2 1 records.length ∧ FieldAt d 3 1 status ∧
     ∀ pre r post, records = pre ++ r :: post →
       FieldAt d (4 + size pre) 1 r.code.toNat ∧
       FieldAt d (5 + size pre) 1 (match r.outcome with
         | .done => 0
         | .format => 1
         | .range => 2
         | .locked => 3
         | .state => 4
         | .busy => 5
         | .skipped => 6) ∧
       FieldAt d (6 + size pre) 2 r.data.length ∧ slice d (8 + size pre) r.data.length = r.data) ∧
   (∀ (s : State) (devices : KindSet) (entries : List (Chan × KindSet)) (left : Nat) (d : List Byte), d = noticeMessage s devices entries left →
     d.length = 16 + 4 * entries.length ∧ FieldAt d 0 2 0 ∧ FieldAt d 2 1 0 ∧ FieldAt d 3 1 (statusCode s) ∧ FieldAt d 4 1 devices.toNat ∧
     (∀ k : LaneId, FieldAt d (5 + k.val) 1 (conditionCode (s.lane k).state)) ∧ PortAt d 10 s.prot.selection ∧ PortAt d 11 s.prot.steering ∧
     PortAt d 12 s.prot.echo ∧ FieldAt d 13 2 left ∧ FieldAt d 15 1 entries.length ∧
     ∀ i e, entries[i]? = some e → FieldAt d (16 + 4 * i) 2 e.1.val ∧ FieldAt d (18 + 4 * i) 2 e.2.toNat) ∧
   ∀ (sa : Addr) (q : Nat) (d : Frame), d = pauseFrame sa q →
     d.length = 64 ∧ FieldAt d 0 6 0x0180C2000001 ∧ FieldAt d 6 6 sa.toNat ∧ FieldAt d 12 2 0x8808 ∧ FieldAt d 14 2 1 ∧ FieldAt d 16 2 q ∧
     FieldAt d 18 42 0 ∧ fcsGood d = true) ∧
  (∀ (now : Time) (ch : Channel) (d : List Byte), d = chanReadBytes now ch →
    d.length = 219 ∧ FieldAt d 0 1 ch.isOpen.toNat ∧ FieldAt d 1 2 ch.config.window ∧ FieldAt d 3 6 ch.config.softLimit ∧
    FieldAt d 9 1 ch.config.auto.toNat ∧ FieldAt d 10 2 ch.config.grace ∧ FieldAt d 12 1 ch.config.returnCheck.toNat ∧
    FieldAt d 13 8 ((ch.schedule.map (·.toNat)).getD 0) ∧ OutSlotAt d 21 ch.outA ∧ OutSlotAt d 48 ch.outB ∧ InSlotAt now d 75 ch.inA ∧
    InSlotAt now d 108 ch.inB ∧ ∀ i : Fin 13, FieldAt d (141 + 6 * i.val) 6 ch.counters[i].toNat) ∧
  (∀ (s : State) (d : List Byte), d = statusBytes s →
    d.length = 209 ∧
    FieldAt d 0 1 (match s.part with
      | .testing _ => 0
      | .running => 1
      | .failed _ => 2
      | .unprovisioned => 3) ∧
    FieldAt d 1 1 (statusCode s) ∧ FieldAt d 2 1 (if s.role = .campus then 1 else 0) ∧ FieldAt d 3 1 (lockBit s).toNat ∧
    FieldAt d 4 8 s.time.toNat ∧ (∀ k : LaneId, LaneAt d (12 + 34 * k.val) (s.lane k)) ∧
    PortAt d 182 s.prot.selection ∧ PortAt d 183 s.prot.steering ∧ PortAt d 184 s.prot.echo ∧ PortAt d 185 s.prot.force ∧ PortAt d 186 s.prot.manual ∧
    FieldAt d 187 1 s.prot.lockout.toNat ∧ FieldAt d 188 2 s.prot.wtrSetting ∧ (s.prot.wtrTimer = none → FieldAt d 190 2 0xFFFF) ∧
    (∀ r, s.prot.wtrTimer = some r → ∃ v, RoundedUp 1000000 (r.len - (s.time - r.start).toNat) v ∧ FieldAt d 190 2 v) ∧
    FieldAt d 192 1 s.prot.farFail.toNat ∧ PortAt d 193 s.prot.candidate ∧ FieldAt d 194 1 s.prot.adoptCount ∧ FieldAt d 195 1 s.agent.queue.length ∧
    FieldAt d 196 1 s.agent.devices.toNat ∧ FieldAt d 197 2 s.agent.fifo.length ∧ FieldAt d 199 2 s.agent.masks.toNat ∧
    (s.agent.dest = none → FieldAt d 201 1 0xFF ∧ FieldAt d 202 6 0) ∧
    (∀ n a, s.agent.dest = some (.port n, a) → FieldAt d 201 1 n.val ∧ FieldAt d 202 6 a.toNat) ∧
    (∀ k a, s.agent.dest = some (.lane k, a) → FieldAt d 201 1 (k.val + 4) ∧ FieldAt d 202 6 a.toNat) ∧
    FieldAt d 208 1 s.agent.holdoff.isSome.toNat) ∧
  (∀ (clear : Bool) (s : State) (n : PortId) (d : List Byte), d = (readPlace clear n.val s).1 →
    d.length = 143 ∧ FieldAt d 0 1 n.val ∧ (∀ i : Fin 22, FieldAt d (1 + 6 * i.val) 6 (s.port n).counters[i].toNat) ∧
    FieldAt d 133 4 (totalBytes ((s.port n).buffer.map (·.bytes))) ∧ FieldAt d 137 1 (s.port n).inForce.toNat ∧
    FieldAt d 138 4 (totalBytes ((s.port n).queue.map (·.bytes))) ∧ FieldAt d 142 1 (s.port n).hold.isSome.toNat) ∧
  (∀ (clear : Bool) (s : State) (k : LaneId) (d : List Byte), d = (readPlace clear (k.val + 4) s).1 →
    d.length = 208 ∧ FieldAt d 0 1 (k.val + 4) ∧ (∀ i : Fin 34, FieldAt d (1 + 6 * i.val) 6 (s.lane k).counters[i].toNat) ∧
    FieldAt d 205 1 (s.lane k).control.length ∧ FieldAt d 206 2 (totalBytes (s.lane k).returnQueue)) ∧
  ∀ (clear : Bool) (s : State) (d : List Byte), d = (readPlace clear 9 s).1 →
    d.length = 56 ∧ FieldAt d 0 1 9 ∧ (∀ i : Fin 9, FieldAt d (1 + 6 * i.val) 6 s.agent.counters[i].toNat) ∧
    FieldAt d 55 1 s.agent.queue.length

/-- ID-READ carries no operand, ends DONE, changes nothing and returns the 32 words in order, words 5 to 22 as zero, whatever they hold; STATUS-READ
reports the latched role and LOCK (R173). -/
def Obligations.IdRead : Prop :=
  (∀ (ops : List Byte) (s : State), Ready codeIdRead ops s →
    (ops ≠ [] → exec (.idRead ops) s = .next (ended codeIdRead .format [] (taken s))) ∧
    (ops = [] → ∃ data, exec (.idRead ops) s = .next (ended codeIdRead .done data (taken s)) ∧ data.length = 64 ∧
      ∀ w : Fin 32, slice data (2 * w.val) 2 = beBytes 2 (if 5 ≤ w.val ∧ w.val ≤ 22 then 0 else s.store[w].toNat))) ∧
  ∀ s : State, (statusBytes s)[2]? = some (if s.role = .campus then 1 else 0) ∧ (statusBytes s)[3]? = some (if lockBit s then 1 else 0)

/-- NOTICE-MASK writes the twelve masks; ZEROIZE empties every slot, schedule and the staging buffer and loads channel 0 on a locked part with ZEROIZE_N
high; RESTART, as the last directive of its request, leaves a restart pending for at most 1 s, and is refused FORMAT elsewhere (R37, R166, R169, R176).
The 1 s timer follows log 8. -/
def Obligations.AgentDirectives : Prop :=
  (∀ (ops : List Byte) (s : State), Ready codeNoticeMask ops s →
    (ops.length ≠ 2 → exec (.noticeMask ops) s = .next (ended codeNoticeMask .format [] (taken s))) ∧
    (ops.length = 2 → 4096 ≤ numAt ops 0 2 → exec (.noticeMask ops) s = .next (ended codeNoticeMask .range [] (taken s))) ∧
    ∀ m : KindSet, ops.length = 2 → m.toNat = numAt ops 0 2 → exec (.noticeMask ops) s =
      .next (ended codeNoticeMask .done (beBytes 2 m.toNat) ((taken s).updAgent fun a => { a with masks := m }))) ∧
  (∀ (ops : List Byte) (s : State), Ready codeZeroize ops s →
    (ops ≠ [] → exec (.zeroize ops) s = .next (ended codeZeroize .format [] (taken s))) ∧
    (ops = [] → ∃ t, exec (.zeroize ops) s = .next (ended codeZeroize .done [] t) ∧
      t.staging = { valid := false, key := 0, salt := 0, epoch := 0 } ∧ (∀ c, c ≠ 0 → Zeroized (s.chan c) (t.chan c)) ∧
      (lockBit s = false ∨ s.pins.zeroizeHigh = false → Zeroized (s.chan 0) (t.chan 0)) ∧
      (lockBit s = true → s.pins.zeroizeHigh = true → ∃ d, Zeroized (s.chan 0) d ∧ Loaded0 s d (t.chan 0)) ∧
      t = { taken s with channels := t.channels, staging := t.staging })) ∧
  ∀ (ops : List Byte) (s : State), Ready codeRestart ops s →
    (ops ≠ [] ∨ ¬ isLast s → exec (.restart ops) s = .next (ended codeRestart .format [] (taken s))) ∧
    (ops = [] → isLast s → exec (.restart ops) s = .next (ended codeRestart .done []
      ((taken s).updAgent fun a => { a with restart := some { start := s.time, len := 1000000 } })))

/-- ID-BURN refuses as R174 orders, ends DONE at once for a bit at 1, and otherwise begins a burn of 100 µs. Its completion sets that bit and no other.
The word is reported as ID-READ reports it, words 5 to 22 as zero, so that no reply carries a key (R14, R160; log 37). A burn of LOCK also latches role
and address, empties channel 0 and loads it unless ZEROIZE_N is low, enters RUNNING, and removes and counts the queued CLEAR requests (R157, R171, R172,
R174). When the latched role changes, selection, steering and echo become none with the cuts for the port that was bridged and PROTECT set, the adoption
run ends, the WTR timer stops, and in the RACK role the arbiter then runs (R133, R135). Nothing else of the agent, the lanes or the controller changes.
The 100 µs timer follows log 8. -/
def Obligations.IdBurn : Prop :=
  (∀ (ops : List Byte) (s : State), Ready codeIdBurn ops s →
    (ops.length ≠ 2 → exec (.idBurn ops) s = .next (ended codeIdBurn .format [] (taken s))) ∧
    (ops.length = 2 → 32 ≤ numAt ops 0 1 ∨ 16 ≤ numAt ops 1 1 ∨ numAt ops 0 1 = 4 ∧ 4 ≤ numAt ops 1 1 →
      exec (.idBurn ops) s = .next (ended codeIdBurn .range [] (taken s))) ∧
    ∀ (w : Fin 32) (b : Fin 16), ops.length = 2 → w.val = numAt ops 0 1 → b.val = numAt ops 1 1 → (w = 4 → b.val < 4) →
      (lockBit s = true → exec (.idBurn ops) s = .next (ended codeIdBurn .locked [] (taken s))) ∧
      (lockBit s = false → s.store[w].getLsbD b.val = true →
        exec (.idBurn ops) s = .next (ended codeIdBurn .done (beBytes 2 (if 5 ≤ w.val ∧ w.val ≤ 22 then 0 else s.store[w].toNat)) (taken s))) ∧
      (lockBit s = false → s.store[w].getLsbD b.val = false → exec (.idBurn ops) s =
        .next (settle { taken s with burn := some { word := w, bit := b, timer := { start := s.time, len := 100 } } }))) ∧
  ∀ (s : State) (x : Burn), s.burn = some x → x.timer.len ≤ (s.time - x.timer.start).toNat →
    ∃ t, exec .idBurnCompletion s = .next (ended codeIdBurn .done (beBytes 2 (if 5 ≤ x.word.val ∧ x.word.val ≤ 22 then 0 else t.store[x.word].toNat)) t) ∧ t.burn = none ∧
      (∀ (w : Fin 32) (b : Fin 16), t.store[w].getLsbD b.val = (s.store[w].getLsbD b.val || decide (w = x.word ∧ b = x.bit))) ∧
      (¬ (x.word = 4 ∧ x.bit = 0) → t = { s with store := t.store, burn := none }) ∧
      (x.word = 4 → x.bit = 0 → t.part = .running ∧ t.role = (if t.store[4].getLsbD 1 then Role.campus else .rack) ∧ t.ownAddr = storeAddr t ∧
        (∀ c, c ≠ 0 → t.chan c = s.chan c) ∧ t.agent.queue = s.agent.queue.filter (fun q => !q.clear) ∧
        t.agent.ctr .clearRefused = addCounter (s.agent.ctr .clearRefused) (s.agent.queue.filter (·.clear)).length ∧
        (∃ d, (∀ y, OutCleared (d.outSlot y) ∧ (d.outSlot y).load = ((s.chan 0).outSlot y).load ∧
            (d.outSlot y).inFlight = ((s.chan 0).outSlot y).inFlight ∧ InCleared (d.inSlot y) ∧ (d.inSlot y).load = ((s.chan 0).inSlot y).load ∧
            (d.inSlot y).inFlight = ((s.chan 0).inSlot y).inFlight) ∧
          d = { s.chan 0 with outA := d.outA, outB := d.outB, inA := d.inA, inB := d.inB } ∧
          (s.pins.zeroizeHigh = true → Loaded0 t d (t.chan 0)) ∧ (s.pins.zeroizeHigh = false → t.chan 0 = d)) ∧
        (t.role = s.role → t.prot = s.prot ∧ t.lanes = s.lanes ∧ t.agent.devices = s.agent.devices) ∧
        (t.role ≠ s.role → t.agent.devices = s.agent.devices ||| kindBit .protect ∧
          ∃ u v : State, RoleMoved { s with store := t.store, burn := none } u ∧ u.role = t.role ∧ u.ownAddr = t.ownAddr ∧
            (t.role = .rack → ArbiterRan u v) ∧ (t.role = .campus → v = u) ∧ t.prot = v.prot ∧ t.lanes = v.lanes) ∧
        t.agent = { s.agent with queue := t.agent.queue, counters := t.agent.counters, devices := t.agent.devices } ∧
        (∀ ctr, ctr ≠ .clearRefused → t.agent.ctr ctr = s.agent.ctr ctr) ∧
        t = { s with part := t.part, role := t.role, ownAddr := t.ownAddr, store := t.store, burn := none, channels := t.channels, lanes := t.lanes,
                     prot := t.prot, agent := t.agent })

/-! ### What every directive keeps to -/

/-- A directive that does not end DONE changes nothing and carries no data (R158); one that ends DONE carries exactly the bytes the budget test counted
for it (R159). What a directive that cannot end DONE counts is the model's (log 18). -/
def Obligations.DirectiveOutcomes : Prop :=
  ∀ (last : Bool) (d : Directive) (s : State) (o : DirOutcome) (data : List Byte) (t : State), perform last d s = .ended o data t →
    (o ≠ .done → t = s ∧ data = []) ∧ (o = .done → data.length = dataSize d)

/-- No directive but KEY-COMMIT reports anything that depends on a key or a salt in a slot or in the staging buffer: on two states that differ in those
alone it ends with the same outcome and the same data, and leaves two states that differ in those alone (R21, R22, R25). -/
def Obligations.KeysNeverReadBack : Prop :=
  ∀ (last : Bool) (d : Directive) (s s' : State), SameButKeys s s' → d.code ≠ codeKeyCommit →
    (∀ o data t, perform last d s = .ended o data t → ∃ t', perform last d s' = .ended o data t' ∧ SameButKeys t t') ∧
    ∀ t, perform last d s = .begun t → ∃ t', perform last d s' = .begun t' ∧ SameButKeys t t'

/-! ### Protect and verify -/

/-- The nonce is 4 bytes of salt, 2 of the channel field and 6 of the sequence; the authenticated data are the 24 bytes of DA, SA and header, followed
on channel 1 by the inner part (R8, R9). Protect gives a ciphertext of the text's length, under the counter blocks 2 and on of the nonce, and a 16-byte
tag over authenticated data, ciphertext and their lengths: Galois/counter mode as SP 800-38D has it (R10; log 3). A frame verifies exactly when
its inner part and tag are what protect gives for its authenticated data as received, under the slot's key and the nonce of its own header, and gives
that text (R11). So verify opens what protect sealed under the same key and salt, and gives back its addresses, its header and its text, in a frame 44
bytes longer than the text with a good FCS; of channel 1 the payload, and a frame whose first tag bit was inverted does not verify, though its FCS, made
after the inversion (log 21), is good (R150). A message of the part is padded with zero bytes until its envelope frame has 64 bytes; a CLEAR frame is DA,
SA, header and message with an FCS over them, 28 bytes longer than its message (R2, R3, R10). The recovered inner frame holds the addresses of the envelope,
the text padded until the frame has 64 bytes, and a new FCS (R2, R85). -/
def Obligations.VerifyOpensProtect : Prop :=
  (∀ (salt : Salt) (da sa : Addr) (h : Header) (nonce head : List Byte), nonce = nonceOf salt h → head = addrBytes da sa ++ headerBytes h →
    nonce.length = 12 ∧ numAt nonce 0 4 = salt.toNat ∧ numAt nonce 4 2 = h.chanField.toNat ∧ numAt nonce 6 6 = h.seq.toNat ∧
    head.length = 24 ∧ numAt head 0 6 = da.toNat ∧ numAt head 6 6 = sa.toNat ∧ numAt head 12 2 = 0x9A3C ∧ numAt head 14 1 = h.control.toNat ∧
    numAt head 15 1 = h.epoch.toNat ∧ numAt head 16 2 = h.chanField.toNat ∧ numAt head 18 6 = h.seq.toNat) ∧
  (∀ (key : Key) (nonce aad text ct tag : List Byte), nonce.length = 12 → protectText key nonce aad text = (ct, tag) →
    ct.length = text.length ∧ tag.length = 16 ∧
    (∀ j b, text[j]? = some b → ct[j]? = some (b ^^^ (aes key (nonce ++ beBytes 4 (2 + j / 16))).getD (j % 16) 0)) ∧
    tag = xorBytes (beBytes 16 (ghash (BitVec.ofNat 128 (beNat (aes key (List.replicate 16 0)))) (gcmBlocks aad.length aad ++ gcmBlocks ct.length ct ++
      [BitVec.ofNat 128 (8 * aad.length * 2 ^ 64 + 8 * ct.length)])).toNat) (aes key (nonce ++ [0, 0, 0, 1]))) ∧
  (∀ (key : Key) (salt : Salt) (f : Frame) (nonce head inner tag text : List Byte), 44 ≤ f.length → nonce = nonceOf salt (headerOf f) →
    frameBody f = head ++ inner ++ tag → head.length = 24 → tag.length = 16 →
    (headerChan (headerOf f) ≠ 1 → (openFrame key salt f = some text ↔ protectText key nonce head text = (inner, tag))) ∧
    (headerChan (headerOf f) = 1 → (openFrame key salt f = some text ↔ text = inner ∧ protectText key nonce (head ++ inner) [] = ([], tag)))) ∧
  ((∀ (da sa : Addr) (h : Header) (msg head : List Byte) (f : Frame), head = addrBytes da sa ++ headerBytes h → f = clearFrame da sa h msg →
     frameBody f = head ++ msg ∧ headerOf f = h ∧ frameDa f = da ∧ frameSa f = sa ∧ f.length = msg.length + 28 ∧ fcsGood f = true ∧ hasMarker f = true) ∧
   (∀ (f : Frame) (head msg : List Byte), frameBody f = head ++ msg → head.length = 24 → clearPart f = msg) ∧
   (∀ (overhead : Nat) (msg : List Byte), padMessage overhead msg = msg ++ List.replicate (64 - overhead - msg.length) 0) ∧
   ∀ (f g : Frame) (text : List Byte), 16 ≤ f.length → g = recoveredFrame f text →
     frameBody g = f.take 12 ++ text ++ List.replicate (48 - text.length) 0 ∧ frameDa g = frameDa f ∧ frameSa g = frameSa f ∧
     g.length = max 64 (text.length + 16) ∧ fcsGood g = true) ∧
  ∀ (key : Key) (salt : Salt) (da sa : Addr) (h : Header) (text head : List Byte), head = addrBytes da sa ++ headerBytes h →
    (headerChan h ≠ 1 → ∃ f ct tag, f = sealText key salt da sa h text ∧ protectText key (nonceOf salt h) head text = (ct, tag) ∧
      frameBody f = head ++ ct ++ tag ∧ openFrame key salt f = some text ∧ headerOf f = h ∧ frameDa f = da ∧
      frameSa f = sa ∧ f.length = text.length + 44 ∧ fcsGood f = true ∧ hasMarker f = true) ∧
    (headerChan h = 1 → ∃ f g tag, f = sealLink key salt da sa h text false ∧ g = sealLink key salt da sa h text true ∧
      protectText key (nonceOf salt h) (head ++ text) [] = ([], tag) ∧ frameBody f = head ++ text ++ tag ∧
      frameBody g = head ++ text ++ ((tag.getD 0 0 ^^^ 0x80) :: tag.drop 1) ∧ openFrame key salt f = some text ∧
      openFrame key salt g = none ∧ headerOf f = h ∧ frameDa f = da ∧ frameSa f = sa ∧ f.length = text.length + 44 ∧ fcsGood f = true ∧
      fcsGood g = true ∧ hasMarker f = true)

/-! ### The sender -/

/-- What an event ends with at the sender. A frame in hand stays. A waiting reply is taken into an empty hand: on an unlocked part as a CLEAR frame, on
a locked one under channel 0's LIVE slot, and without a sequence it is lost and counted. With no reply, a notice is built when an unmasked kind is
pending, the holdoff timer stands, a destination is known and, on a locked part, channel 0 has a LIVE slot: it reports the unmasked device kinds and the
unmasked kinds of the first 32 channels that have one, clears those, and starts the holdoff for 1 ms. Nothing else happens (R160, R161, R167; log 23).
-/
def Obligations.SenderJudged : Prop :=
  (∀ (s : State) (h : Hand), s.agent.hand = some h → settle s = s) ∧
  (∀ s : State, s.agent.hand = none → s.agent.reply = none →
    (s.agent.devices &&& ~~~s.agent.masks = 0 ∧ (∀ e ∈ s.agent.fifo, e.2 &&& ~~~s.agent.masks = 0) ∨ s.agent.holdoff ≠ none ∨ s.agent.dest = none ∨
      lockBit s = true ∧ ∀ x, ((s.chan 0).outSlot x).state ≠ .live) →
    settle s = s) ∧
  (∀ (s : State) (r : Reply), s.agent.hand = none → s.agent.reply = some r → lockBit s = false →
    settle s = s.updAgent fun a =>
      { a with
        reply := none
        hand := some ⟨r.place, .reply r.final, .ready (clearFrame r.sa s.ownAddr ⟨0x60, 0, 0x8000, 1⟩ (padMessage 28 r.msg)) none⟩ }) ∧
  (∀ (s s1 : State) (r : Reply), s.agent.hand = none → s.agent.reply = some r → lockBit s = true →
    s1 = s.updAgent (fun a => { a with reply := none }) →
    (∀ w epoch t, assignSequence 0 .agent s1 = (.inr (w, epoch), t) → settle s = t.updAgent fun a =>
      { a with hand := some ⟨r.place, .reply r.final, .protecting w ⟨0x40, epoch, 0x8000, w.seq⟩ r.sa s.ownAddr (padMessage 44 r.msg)⟩ }) ∧
    (∀ ctr t, assignSequence 0 .agent s1 = (.inl ctr, t) → r.final = false ∨ s.agent.restart = none →
      settle s = settle (s1.countAgent .replyLost)) ∧
    ∀ ctr t x, assignSequence 0 .agent s1 = (.inl ctr, t) → r.final = true → s.agent.restart = some x → IsCold s.pins s (settle s)) ∧
  ∀ (s : State) (place : Place) (addr : Addr) (n : Nat), s.agent.hand = none → s.agent.reply = none → s.agent.holdoff = none →
    s.agent.dest = some (place, addr) → n = (s.agent.fifo.filter (fun e => e.2 &&& ~~~s.agent.masks != 0)).length →
    (s.agent.devices &&& ~~~s.agent.masks ≠ 0 ∨ 0 < n) →
    ∃ (devices : KindSet) (entries fifo : List (Chan × KindSet)) (s1 : State) (msg : List Byte),
      devices = s.agent.devices &&& ~~~s.agent.masks ∧
      entries = ((s.agent.fifo.filter (fun e => e.2 &&& ~~~s.agent.masks != 0)).take 32).map (fun e => (e.1, e.2 &&& ~~~s.agent.masks)) ∧
      (∃ pre post, s.agent.fifo = pre ++ post ∧ (pre.filter (fun e => e.2 &&& ~~~s.agent.masks != 0)).length = min 32 n ∧
        fifo = pre.filterMap (fun e => if e.2 &&& ~~~s.agent.masks ≠ 0 ∧ e.2 &&& s.agent.masks = 0 then none else some (e.1, e.2 &&& s.agent.masks)) ++
          post) ∧
      s1 = s.updAgent (fun a =>
        { a with devices := a.devices &&& a.masks, fifo := fifo, holdoff := some { start := s.time, len := 1000 } }) ∧
      msg = noticeMessage s devices entries (n - min 32 n) ∧
      (lockBit s = false → settle s = s1.updAgent fun a =>
        { a with hand := some ⟨place, .notice devices entries, .ready (clearFrame addr s.ownAddr ⟨0x60, 0, 0x8000, 1⟩ (padMessage 28 msg)) none⟩ }) ∧
      ∀ w epoch t, lockBit s = true → (∃ x, ((s.chan 0).outSlot x).state = .live) → assignSequence 0 .agent s1 = (.inr (w, epoch), t) →
        settle s = t.updAgent fun a =>
          { a with hand := some ⟨place, .notice devices entries, .protecting w ⟨0x40, epoch, 0x8000, w.seq⟩ addr s.ownAddr (padMessage 44 msg)⟩ }

/-! ### What every step keeps -/

/-- Every step keeps the rollover condition of every channel: one slot in service at most, one CURRENT slot at most, FADING only beside CURRENT, two
epochs among the inbound slots, and no key on channel 0 while the part is blocked or ZEROIZE_N is low (R28, R94, R102, R169, R175). -/
def Obligations.StepKeepsRollover : Prop :=
  ∀ s t : State, RolloverInv s → step s = .next t → RolloverInv t

/-- Every step keeps the slots in order: an EMPTY slot holds nothing, a CLOSED channel has no inbound key, channel 0 is OPEN, and the marks of a window
lie within W of its top (R17, R18, R24, R81). -/
def Obligations.StepKeepsSlots : Prop :=
  ∀ s t : State, SlotsInv s → step s = .next t → SlotsInv t

/-- Every step keeps every buffer and queue within its capacity, and at most one beacon in a control queue (R107, R116, R123, R143, R157). Every step
keeps the lookups of each source in the order of its frames: no frame is under a lookup behind one whose lookup may still begin, and the banks of the
lookups under way never go back, so that no frame judged on a new bank comes before one of its source judged on the old (R44). That a traffic frame in
verification keeps every later frame of its lane out of lookup, checked in the end or not, is the model's choice (log 34). -/
def Obligations.StepKeepsQueues : Prop :=
  (∀ s t : State, CapacityInv s → step s = .next t → CapacityInv t) ∧ ∀ s t : State, LookupsInOrder s → step s = .next t → LookupsInOrder t

/-- No step turns a bit of the identity store back to 0. With no burn under way no step changes it, and on a locked part no step begins a burn (R172,
R174). -/
def Obligations.StoreBitsOnlyRise : Prop :=
  ∀ s t : State, step s = .next t →
    (∀ (w : Fin 32) (b : Nat), s.store[w].getLsbD b = true → t.store[w].getLsbD b = true) ∧
    (s.burn = none → t.store = s.store ∧ (lockBit s = true → t.burn = none))

/-- The state right after reset meets the four conditions, and its identity store reads 0: a fresh part's, the model's choice (log 10), since a cold
reset does not touch the store. -/
def Obligations.InvariantsAtReset : Prop :=
  RolloverInv State.reset ∧ SlotsInv State.reset ∧ CapacityInv State.reset ∧ LookupsInOrder State.reset ∧ ∀ w : Fin 32, State.reset.store[w] = 0
end

