-- ==== Sys2Proof/Laws/State.lean ====
section
/-! SUPPORT. One lemma for each field and each update of the state, and for each record reached through an update. -/

namespace Sys2Proof.Machine

variable (s : State)

/-! ### updChan -/

@[simp] theorem State.updChan_pins (c : Chan) (f : Channel → Channel) : (s.updChan c f).pins = s.pins := rfl
@[simp] theorem State.updChan_part (c : Chan) (f : Channel → Channel) : (s.updChan c f).part = s.part := rfl
@[simp] theorem State.updChan_role (c : Chan) (f : Channel → Channel) : (s.updChan c f).role = s.role := rfl
@[simp] theorem State.updChan_ownAddr (c : Chan) (f : Channel → Channel) : (s.updChan c f).ownAddr = s.ownAddr := rfl
@[simp] theorem State.updChan_store (c : Chan) (f : Channel → Channel) : (s.updChan c f).store = s.store := rfl
@[simp] theorem State.updChan_burn (c : Chan) (f : Channel → Channel) : (s.updChan c f).burn = s.burn := rfl
@[simp] theorem State.updChan_time (c : Chan) (f : Channel → Channel) : (s.updChan c f).time = s.time := rfl
@[simp] theorem State.updChan_staging (c : Chan) (f : Channel → Channel) : (s.updChan c f).staging = s.staging := rfl
@[simp] theorem State.updChan_active (c : Chan) (f : Channel → Channel) : (s.updChan c f).active = s.active := rfl
@[simp] theorem State.updChan_shadow (c : Chan) (f : Channel → Channel) : (s.updChan c f).shadow = s.shadow := rfl
@[simp] theorem State.updChan_hits (c : Chan) (f : Channel → Channel) : (s.updChan c f).hits = s.hits := rfl
@[simp] theorem State.updChan_bankGen (c : Chan) (f : Channel → Channel) : (s.updChan c f).bankGen = s.bankGen := rfl
@[simp] theorem State.updChan_move (c : Chan) (f : Channel → Channel) : (s.updChan c f).move = s.move := rfl
@[simp] theorem State.updChan_ports (c : Chan) (f : Channel → Channel) : (s.updChan c f).ports = s.ports := rfl
@[simp] theorem State.updChan_lanes (c : Chan) (f : Channel → Channel) : (s.updChan c f).lanes = s.lanes := rfl
@[simp] theorem State.updChan_prot (c : Chan) (f : Channel → Channel) : (s.updChan c f).prot = s.prot := rfl
@[simp] theorem State.updChan_agent (c : Chan) (f : Channel → Channel) : (s.updChan c f).agent = s.agent := rfl
@[simp] theorem State.updChan_lastRecord (c : Chan) (f : Channel → Channel) : (s.updChan c f).lastRecord = s.lastRecord := rfl
@[simp] theorem State.updChan_free (c : Chan) (f : Channel → Channel) : (s.updChan c f).free = s.free := rfl
@[simp] theorem State.updChan_pending (c : Chan) (f : Channel → Channel) : (s.updChan c f).pending = s.pending := rfl

/-! ### updPort -/

@[simp] theorem State.updPort_pins (n : PortId) (f : Port → Port) : (s.updPort n f).pins = s.pins := rfl
@[simp] theorem State.updPort_part (n : PortId) (f : Port → Port) : (s.updPort n f).part = s.part := rfl
@[simp] theorem State.updPort_role (n : PortId) (f : Port → Port) : (s.updPort n f).role = s.role := rfl
@[simp] theorem State.updPort_ownAddr (n : PortId) (f : Port → Port) : (s.updPort n f).ownAddr = s.ownAddr := rfl
@[simp] theorem State.updPort_store (n : PortId) (f : Port → Port) : (s.updPort n f).store = s.store := rfl
@[simp] theorem State.updPort_burn (n : PortId) (f : Port → Port) : (s.updPort n f).burn = s.burn := rfl
@[simp] theorem State.updPort_time (n : PortId) (f : Port → Port) : (s.updPort n f).time = s.time := rfl
@[simp] theorem State.updPort_channels (n : PortId) (f : Port → Port) : (s.updPort n f).channels = s.channels := rfl
@[simp] theorem State.updPort_staging (n : PortId) (f : Port → Port) : (s.updPort n f).staging = s.staging := rfl
@[simp] theorem State.updPort_active (n : PortId) (f : Port → Port) : (s.updPort n f).active = s.active := rfl
@[simp] theorem State.updPort_shadow (n : PortId) (f : Port → Port) : (s.updPort n f).shadow = s.shadow := rfl
@[simp] theorem State.updPort_hits (n : PortId) (f : Port → Port) : (s.updPort n f).hits = s.hits := rfl
@[simp] theorem State.updPort_bankGen (n : PortId) (f : Port → Port) : (s.updPort n f).bankGen = s.bankGen := rfl
@[simp] theorem State.updPort_move (n : PortId) (f : Port → Port) : (s.updPort n f).move = s.move := rfl
@[simp] theorem State.updPort_lanes (n : PortId) (f : Port → Port) : (s.updPort n f).lanes = s.lanes := rfl
@[simp] theorem State.updPort_prot (n : PortId) (f : Port → Port) : (s.updPort n f).prot = s.prot := rfl
@[simp] theorem State.updPort_agent (n : PortId) (f : Port → Port) : (s.updPort n f).agent = s.agent := rfl
@[simp] theorem State.updPort_lastRecord (n : PortId) (f : Port → Port) : (s.updPort n f).lastRecord = s.lastRecord := rfl
@[simp] theorem State.updPort_free (n : PortId) (f : Port → Port) : (s.updPort n f).free = s.free := rfl
@[simp] theorem State.updPort_pending (n : PortId) (f : Port → Port) : (s.updPort n f).pending = s.pending := rfl

/-! ### updLane -/

@[simp] theorem State.updLane_pins (k : LaneId) (f : Lane → Lane) : (s.updLane k f).pins = s.pins := rfl
@[simp] theorem State.updLane_part (k : LaneId) (f : Lane → Lane) : (s.updLane k f).part = s.part := rfl
@[simp] theorem State.updLane_role (k : LaneId) (f : Lane → Lane) : (s.updLane k f).role = s.role := rfl
@[simp] theorem State.updLane_ownAddr (k : LaneId) (f : Lane → Lane) : (s.updLane k f).ownAddr = s.ownAddr := rfl
@[simp] theorem State.updLane_store (k : LaneId) (f : Lane → Lane) : (s.updLane k f).store = s.store := rfl
@[simp] theorem State.updLane_burn (k : LaneId) (f : Lane → Lane) : (s.updLane k f).burn = s.burn := rfl
@[simp] theorem State.updLane_time (k : LaneId) (f : Lane → Lane) : (s.updLane k f).time = s.time := rfl
@[simp] theorem State.updLane_channels (k : LaneId) (f : Lane → Lane) : (s.updLane k f).channels = s.channels := rfl
@[simp] theorem State.updLane_staging (k : LaneId) (f : Lane → Lane) : (s.updLane k f).staging = s.staging := rfl
@[simp] theorem State.updLane_active (k : LaneId) (f : Lane → Lane) : (s.updLane k f).active = s.active := rfl
@[simp] theorem State.updLane_shadow (k : LaneId) (f : Lane → Lane) : (s.updLane k f).shadow = s.shadow := rfl
@[simp] theorem State.updLane_hits (k : LaneId) (f : Lane → Lane) : (s.updLane k f).hits = s.hits := rfl
@[simp] theorem State.updLane_bankGen (k : LaneId) (f : Lane → Lane) : (s.updLane k f).bankGen = s.bankGen := rfl
@[simp] theorem State.updLane_move (k : LaneId) (f : Lane → Lane) : (s.updLane k f).move = s.move := rfl
@[simp] theorem State.updLane_ports (k : LaneId) (f : Lane → Lane) : (s.updLane k f).ports = s.ports := rfl
@[simp] theorem State.updLane_prot (k : LaneId) (f : Lane → Lane) : (s.updLane k f).prot = s.prot := rfl
@[simp] theorem State.updLane_agent (k : LaneId) (f : Lane → Lane) : (s.updLane k f).agent = s.agent := rfl
@[simp] theorem State.updLane_lastRecord (k : LaneId) (f : Lane → Lane) : (s.updLane k f).lastRecord = s.lastRecord := rfl
@[simp] theorem State.updLane_free (k : LaneId) (f : Lane → Lane) : (s.updLane k f).free = s.free := rfl
@[simp] theorem State.updLane_pending (k : LaneId) (f : Lane → Lane) : (s.updLane k f).pending = s.pending := rfl

/-! ### updAgent -/

@[simp] theorem State.updAgent_pins (f : Agent → Agent) : (s.updAgent f).pins = s.pins := rfl
@[simp] theorem State.updAgent_part (f : Agent → Agent) : (s.updAgent f).part = s.part := rfl
@[simp] theorem State.updAgent_role (f : Agent → Agent) : (s.updAgent f).role = s.role := rfl
@[simp] theorem State.updAgent_ownAddr (f : Agent → Agent) : (s.updAgent f).ownAddr = s.ownAddr := rfl
@[simp] theorem State.updAgent_store (f : Agent → Agent) : (s.updAgent f).store = s.store := rfl
@[simp] theorem State.updAgent_burn (f : Agent → Agent) : (s.updAgent f).burn = s.burn := rfl
@[simp] theorem State.updAgent_time (f : Agent → Agent) : (s.updAgent f).time = s.time := rfl
@[simp] theorem State.updAgent_channels (f : Agent → Agent) : (s.updAgent f).channels = s.channels := rfl
@[simp] theorem State.updAgent_staging (f : Agent → Agent) : (s.updAgent f).staging = s.staging := rfl
@[simp] theorem State.updAgent_active (f : Agent → Agent) : (s.updAgent f).active = s.active := rfl
@[simp] theorem State.updAgent_shadow (f : Agent → Agent) : (s.updAgent f).shadow = s.shadow := rfl
@[simp] theorem State.updAgent_hits (f : Agent → Agent) : (s.updAgent f).hits = s.hits := rfl
@[simp] theorem State.updAgent_bankGen (f : Agent → Agent) : (s.updAgent f).bankGen = s.bankGen := rfl
@[simp] theorem State.updAgent_move (f : Agent → Agent) : (s.updAgent f).move = s.move := rfl
@[simp] theorem State.updAgent_ports (f : Agent → Agent) : (s.updAgent f).ports = s.ports := rfl
@[simp] theorem State.updAgent_lanes (f : Agent → Agent) : (s.updAgent f).lanes = s.lanes := rfl
@[simp] theorem State.updAgent_prot (f : Agent → Agent) : (s.updAgent f).prot = s.prot := rfl
@[simp] theorem State.updAgent_lastRecord (f : Agent → Agent) : (s.updAgent f).lastRecord = s.lastRecord := rfl
@[simp] theorem State.updAgent_free (f : Agent → Agent) : (s.updAgent f).free = s.free := rfl
@[simp] theorem State.updAgent_pending (f : Agent → Agent) : (s.updAgent f).pending = s.pending := rfl

/-! ### updProt -/

@[simp] theorem State.updProt_pins (f : Protection → Protection) : (s.updProt f).pins = s.pins := rfl
@[simp] theorem State.updProt_part (f : Protection → Protection) : (s.updProt f).part = s.part := rfl
@[simp] theorem State.updProt_role (f : Protection → Protection) : (s.updProt f).role = s.role := rfl
@[simp] theorem State.updProt_ownAddr (f : Protection → Protection) : (s.updProt f).ownAddr = s.ownAddr := rfl
@[simp] theorem State.updProt_store (f : Protection → Protection) : (s.updProt f).store = s.store := rfl
@[simp] theorem State.updProt_burn (f : Protection → Protection) : (s.updProt f).burn = s.burn := rfl
@[simp] theorem State.updProt_time (f : Protection → Protection) : (s.updProt f).time = s.time := rfl
@[simp] theorem State.updProt_channels (f : Protection → Protection) : (s.updProt f).channels = s.channels := rfl
@[simp] theorem State.updProt_staging (f : Protection → Protection) : (s.updProt f).staging = s.staging := rfl
@[simp] theorem State.updProt_active (f : Protection → Protection) : (s.updProt f).active = s.active := rfl
@[simp] theorem State.updProt_shadow (f : Protection → Protection) : (s.updProt f).shadow = s.shadow := rfl
@[simp] theorem State.updProt_hits (f : Protection → Protection) : (s.updProt f).hits = s.hits := rfl
@[simp] theorem State.updProt_bankGen (f : Protection → Protection) : (s.updProt f).bankGen = s.bankGen := rfl
@[simp] theorem State.updProt_move (f : Protection → Protection) : (s.updProt f).move = s.move := rfl
@[simp] theorem State.updProt_ports (f : Protection → Protection) : (s.updProt f).ports = s.ports := rfl
@[simp] theorem State.updProt_lanes (f : Protection → Protection) : (s.updProt f).lanes = s.lanes := rfl
@[simp] theorem State.updProt_agent (f : Protection → Protection) : (s.updProt f).agent = s.agent := rfl
@[simp] theorem State.updProt_lastRecord (f : Protection → Protection) : (s.updProt f).lastRecord = s.lastRecord := rfl
@[simp] theorem State.updProt_free (f : Protection → Protection) : (s.updProt f).free = s.free := rfl
@[simp] theorem State.updProt_pending (f : Protection → Protection) : (s.updProt f).pending = s.pending := rfl

@[simp] theorem State.updChan_port (c : Chan) (f : Channel → Channel) (m : PortId) : (s.updChan c f).port m = s.port m := rfl
@[simp] theorem State.updChan_lane (c : Chan) (f : Channel → Channel) (j : LaneId) : (s.updChan c f).lane j = s.lane j := rfl
@[simp] theorem State.updPort_chan (n : PortId) (f : Port → Port) (d : Chan) : (s.updPort n f).chan d = s.chan d := rfl
@[simp] theorem State.updPort_lane (n : PortId) (f : Port → Port) (j : LaneId) : (s.updPort n f).lane j = s.lane j := rfl
@[simp] theorem State.updLane_chan (k : LaneId) (f : Lane → Lane) (d : Chan) : (s.updLane k f).chan d = s.chan d := rfl
@[simp] theorem State.updLane_port (k : LaneId) (f : Lane → Lane) (m : PortId) : (s.updLane k f).port m = s.port m := rfl
@[simp] theorem State.updAgent_chan (f : Agent → Agent) (d : Chan) : (s.updAgent f).chan d = s.chan d := rfl
@[simp] theorem State.updAgent_port (f : Agent → Agent) (m : PortId) : (s.updAgent f).port m = s.port m := rfl
@[simp] theorem State.updAgent_lane (f : Agent → Agent) (j : LaneId) : (s.updAgent f).lane j = s.lane j := rfl
@[simp] theorem State.updProt_chan (f : Protection → Protection) (d : Chan) : (s.updProt f).chan d = s.chan d := rfl
@[simp] theorem State.updProt_port (f : Protection → Protection) (m : PortId) : (s.updProt f).port m = s.port m := rfl
@[simp] theorem State.updProt_lane (f : Protection → Protection) (j : LaneId) : (s.updProt f).lane j = s.lane j := rfl

@[simp] theorem State.updAgent_agent (f : Agent → Agent) : (s.updAgent f).agent = f s.agent := rfl
@[simp] theorem State.updProt_prot (f : Protection → Protection) : (s.updProt f).prot = f s.prot := rfl

theorem State.updChan_chan_eq (c : Chan) (f : Channel → Channel) : (s.updChan c f).chan c = f (s.chan c) := by
  simp [State.updChan, State.chan]

theorem State.updPort_port_eq (n : PortId) (f : Port → Port) : (s.updPort n f).port n = f (s.port n) := by
  simp [State.updPort, State.port]

theorem State.updLane_lane_eq (k : LaneId) (f : Lane → Lane) : (s.updLane k f).lane k = f (s.lane k) := by
  simp [State.updLane, State.lane]

/-- The record an update reaches changes, every other stays. -/
@[simp] theorem State.updChan_chan (c d : Chan) (f : Channel → Channel) :
    (s.updChan c f).chan d = if d = c then f (s.chan d) else s.chan d := by
  by_cases h : d = c
  · subst h; simp [State.updChan_chan_eq]
  · simp [State.updChan, State.chan, h, Fin.val_ne_of_ne (Ne.symm h)]

@[simp] theorem State.updPort_port (n m : PortId) (f : Port → Port) :
    (s.updPort n f).port m = if m = n then f (s.port m) else s.port m := by
  by_cases h : m = n
  · subst h; simp [State.updPort_port_eq]
  · simp [State.updPort, State.port, h, Fin.val_ne_of_ne (Ne.symm h)]

@[simp] theorem State.updLane_lane (k j : LaneId) (f : Lane → Lane) :
    (s.updLane k f).lane j = if j = k then f (s.lane j) else s.lane j := by
  by_cases h : j = k
  · subst h; simp [State.updLane_lane_eq]
  · simp [State.updLane, State.lane, h, Fin.val_ne_of_ne (Ne.symm h)]

/-! ### Two updates that agree on the record they reach, and two updates of one record -/

theorem State.updChan_congr {c : Chan} {f g : Channel → Channel} (h : f (s.chan c) = g (s.chan c)) : s.updChan c f = s.updChan c g := by
  unfold State.updChan; rw [show f s.channels[c] = g s.channels[c] from h]
theorem State.updPort_congr {n : PortId} {f g : Port → Port} (h : f (s.port n) = g (s.port n)) : s.updPort n f = s.updPort n g := by
  unfold State.updPort; rw [show f s.ports[n] = g s.ports[n] from h]
theorem State.updLane_congr {k : LaneId} {f g : Lane → Lane} (h : f (s.lane k) = g (s.lane k)) : s.updLane k f = s.updLane k g := by
  unfold State.updLane; rw [show f s.lanes[k] = g s.lanes[k] from h]
theorem State.updChan_updChan (c : Chan) (f g : Channel → Channel) : (s.updChan c f).updChan c g = s.updChan c fun x => g (f x) := by
  simp [State.updChan]
theorem State.updPort_updPort (n : PortId) (f g : Port → Port) : (s.updPort n f).updPort n g = s.updPort n fun x => g (f x) := by
  simp [State.updPort]
theorem State.updLane_updLane (k : LaneId) (f g : Lane → Lane) : (s.updLane k f).updLane k g = s.updLane k fun x => g (f x) := by
  simp [State.updLane]
theorem State.updAgent_updAgent (f g : Agent → Agent) : (s.updAgent f).updAgent g = s.updAgent fun x => g (f x) := rfl

/-! ### Slots of a channel -/

@[simp] theorem Channel.outSlot_setOut (ch : Channel) (x y : Letter) (o : OutSlot) :
    (ch.setOut x o).outSlot y = if y = x then o else ch.outSlot y := by cases x <;> cases y <;> rfl
@[simp] theorem Channel.inSlot_setIn (ch : Channel) (x y : Letter) (i : InSlot) :
    (ch.setIn x i).inSlot y = if y = x then i else ch.inSlot y := by cases x <;> cases y <;> rfl
@[simp] theorem Channel.outSlot_setIn (ch : Channel) (x y : Letter) (i : InSlot) : (ch.setIn x i).outSlot y = ch.outSlot y := by
  cases x <;> cases y <;> rfl
@[simp] theorem Channel.inSlot_setOut (ch : Channel) (x y : Letter) (o : OutSlot) : (ch.setOut x o).inSlot y = ch.inSlot y := by
  cases x <;> cases y <;> rfl
@[simp] theorem Letter.other_other (x : Letter) : x.other.other = x := by cases x <;> rfl
@[simp] theorem Letter.other_ne (x : Letter) : x.other ≠ x := by cases x <;> decide
@[simp] theorem Letter.ne_other (x : Letter) : x ≠ x.other := by cases x <;> decide

@[simp] theorem Channel.setOut_isOpen (ch : Channel) (x : Letter) (o : OutSlot) : (ch.setOut x o).isOpen = ch.isOpen := by cases x <;> rfl
@[simp] theorem Channel.setOut_config (ch : Channel) (x : Letter) (o : OutSlot) : (ch.setOut x o).config = ch.config := by cases x <;> rfl
@[simp] theorem Channel.setOut_schedule (ch : Channel) (x : Letter) (o : OutSlot) : (ch.setOut x o).schedule = ch.schedule := by cases x <;> rfl
@[simp] theorem Channel.setOut_counters (ch : Channel) (x : Letter) (o : OutSlot) : (ch.setOut x o).counters = ch.counters := by cases x <;> rfl
@[simp] theorem Channel.setOut_inA (ch : Channel) (x : Letter) (o : OutSlot) : (ch.setOut x o).inA = ch.inA := by cases x <;> rfl
@[simp] theorem Channel.setOut_inB (ch : Channel) (x : Letter) (o : OutSlot) : (ch.setOut x o).inB = ch.inB := by cases x <;> rfl
@[simp] theorem Channel.setIn_isOpen (ch : Channel) (x : Letter) (i : InSlot) : (ch.setIn x i).isOpen = ch.isOpen := by cases x <;> rfl
@[simp] theorem Channel.setIn_config (ch : Channel) (x : Letter) (i : InSlot) : (ch.setIn x i).config = ch.config := by cases x <;> rfl
@[simp] theorem Channel.setIn_schedule (ch : Channel) (x : Letter) (i : InSlot) : (ch.setIn x i).schedule = ch.schedule := by cases x <;> rfl
@[simp] theorem Channel.setIn_counters (ch : Channel) (x : Letter) (i : InSlot) : (ch.setIn x i).counters = ch.counters := by cases x <;> rfl
@[simp] theorem Channel.setIn_outA (ch : Channel) (x : Letter) (i : InSlot) : (ch.setIn x i).outA = ch.outA := by cases x <;> rfl
@[simp] theorem Channel.setIn_outB (ch : Channel) (x : Letter) (i : InSlot) : (ch.setIn x i).outB = ch.outB := by cases x <;> rfl

/-! ### Counting changes the counters and nothing else -/

@[simp] theorem Channel.count_isOpen (ch : Channel) (c : ChanCtr) (k : Nat) : (ch.count c k).isOpen = ch.isOpen := rfl
@[simp] theorem Channel.count_config (ch : Channel) (c : ChanCtr) (k : Nat) : (ch.count c k).config = ch.config := rfl
@[simp] theorem Channel.count_schedule (ch : Channel) (c : ChanCtr) (k : Nat) : (ch.count c k).schedule = ch.schedule := rfl
@[simp] theorem Channel.count_outA (ch : Channel) (c : ChanCtr) (k : Nat) : (ch.count c k).outA = ch.outA := rfl
@[simp] theorem Channel.count_outB (ch : Channel) (c : ChanCtr) (k : Nat) : (ch.count c k).outB = ch.outB := rfl
@[simp] theorem Channel.count_inA (ch : Channel) (c : ChanCtr) (k : Nat) : (ch.count c k).inA = ch.inA := rfl
@[simp] theorem Channel.count_inB (ch : Channel) (c : ChanCtr) (k : Nat) : (ch.count c k).inB = ch.inB := rfl
@[simp] theorem Port.count_outLine (p : Port) (c : PortCtr) (k : Nat) : (p.count c k).outLine = p.outLine := rfl
@[simp] theorem Port.count_mgmtLine (p : Port) (c : PortCtr) (k : Nat) : (p.count c k).mgmtLine = p.mgmtLine := rfl
@[simp] theorem Port.count_buffer (p : Port) (c : PortCtr) (k : Nat) : (p.count c k).buffer = p.buffer := rfl
@[simp] theorem Port.count_xoff (p : Port) (c : PortCtr) (k : Nat) : (p.count c k).xoff = p.xoff := rfl
@[simp] theorem Port.count_xon (p : Port) (c : PortCtr) (k : Nat) : (p.count c k).xon = p.xon := rfl
@[simp] theorem Port.count_pauseEnable (p : Port) (c : PortCtr) (k : Nat) : (p.count c k).pauseEnable = p.pauseEnable := rfl
@[simp] theorem Port.count_inForce (p : Port) (c : PortCtr) (k : Nat) : (p.count c k).inForce = p.inForce := rfl
@[simp] theorem Port.count_announced (p : Port) (c : PortCtr) (k : Nat) : (p.count c k).announced = p.announced := rfl
@[simp] theorem Port.count_pendingPause (p : Port) (c : PortCtr) (k : Nat) : (p.count c k).pendingPause = p.pendingPause := rfl
@[simp] theorem Port.count_refresh (p : Port) (c : PortCtr) (k : Nat) : (p.count c k).refresh = p.refresh := rfl
@[simp] theorem Port.count_queue (p : Port) (c : PortCtr) (k : Nat) : (p.count c k).queue = p.queue := rfl
@[simp] theorem Port.count_hold (p : Port) (c : PortCtr) (k : Nat) : (p.count c k).hold = p.hold := rfl
@[simp] theorem Port.count_tx (p : Port) (c : PortCtr) (k : Nat) : (p.count c k).tx = p.tx := rfl
@[simp] theorem Lane.count_state (l : Lane) (c : LaneCtr) (k : Nat) : (l.count c k).state = l.state := rfl
@[simp] theorem Lane.count_peerRun (l : Lane) (c : LaneCtr) (k : Nat) : (l.count c k).peerRun = l.peerRun := rfl
@[simp] theorem Lane.count_continuity (l : Lane) (c : LaneCtr) (k : Nat) : (l.count c k).continuity = l.continuity := rfl
@[simp] theorem Lane.count_beaconTimer (l : Lane) (c : LaneCtr) (k : Nat) : (l.count c k).beaconTimer = l.beaconTimer := rfl
@[simp] theorem Lane.count_control (l : Lane) (c : LaneCtr) (k : Nat) : (l.count c k).control = l.control := rfl
@[simp] theorem Lane.count_tx (l : Lane) (c : LaneCtr) (k : Nat) : (l.count c k).tx = l.tx := rfl
@[simp] theorem Lane.count_peerReport (l : Lane) (c : LaneCtr) (k : Nat) : (l.count c k).peerReport = l.peerReport := rfl
@[simp] theorem Lane.count_loopMode (l : Lane) (c : LaneCtr) (k : Nat) : (l.count c k).loopMode = l.loopMode := rfl
@[simp] theorem Lane.count_loopField (l : Lane) (c : LaneCtr) (k : Nat) : (l.count c k).loopField = l.loopField := rfl
@[simp] theorem Lane.count_autoAccept (l : Lane) (c : LaneCtr) (k : Nat) : (l.count c k).autoAccept = l.autoAccept := rfl
@[simp] theorem Lane.count_persistence (l : Lane) (c : LaneCtr) (k : Nat) : (l.count c k).persistence = l.persistence := rfl
@[simp] theorem Lane.count_loopRun (l : Lane) (c : LaneCtr) (k : Nat) : (l.count c k).loopRun = l.loopRun := rfl
@[simp] theorem Lane.count_returnQueue (l : Lane) (c : LaneCtr) (k : Nat) : (l.count c k).returnQueue = l.returnQueue := rfl
@[simp] theorem Lane.count_genOn (l : Lane) (c : LaneCtr) (k : Nat) : (l.count c k).genOn = l.genOn := rfl
@[simp] theorem Lane.count_rate (l : Lane) (c : LaneCtr) (k : Nat) : (l.count c k).rate = l.rate := rfl
@[simp] theorem Lane.count_innerLen (l : Lane) (c : LaneCtr) (k : Nat) : (l.count c k).innerLen = l.innerLen := rfl
@[simp] theorem Lane.count_pattern (l : Lane) (c : LaneCtr) (k : Nat) : (l.count c k).pattern = l.pattern := rfl
@[simp] theorem Lane.count_inject (l : Lane) (c : LaneCtr) (k : Nat) : (l.count c k).inject = l.inject := rfl
@[simp] theorem Lane.count_rateTimer (l : Lane) (c : LaneCtr) (k : Nat) : (l.count c k).rateTimer = l.rateTimer := rfl
@[simp] theorem Lane.count_locked (l : Lane) (c : LaneCtr) (k : Nat) : (l.count c k).locked = l.locked := rfl
@[simp] theorem Lane.count_goodRun (l : Lane) (c : LaneCtr) (k : Nat) : (l.count c k).goodRun = l.goodRun := rfl
@[simp] theorem Lane.count_judged (l : Lane) (c : LaneCtr) (k : Nat) : (l.count c k).judged = l.judged := rfl
@[simp] theorem Lane.count_unitLine (l : Lane) (c : LaneCtr) (k : Nat) : (l.count c k).unitLine = l.unitLine := rfl
@[simp] theorem Lane.count_inLine (l : Lane) (c : LaneCtr) (k : Nat) : (l.count c k).inLine = l.inLine := rfl
@[simp] theorem Agent.count_queue (a : Agent) (c : AgentCtr) (k : Nat) : (a.count c k).queue = a.queue := rfl
@[simp] theorem Agent.count_run (a : Agent) (c : AgentCtr) (k : Nat) : (a.count c k).run = a.run := rfl
@[simp] theorem Agent.count_reply (a : Agent) (c : AgentCtr) (k : Nat) : (a.count c k).reply = a.reply := rfl
@[simp] theorem Agent.count_hand (a : Agent) (c : AgentCtr) (k : Nat) : (a.count c k).hand = a.hand := rfl
@[simp] theorem Agent.count_restart (a : Agent) (c : AgentCtr) (k : Nat) : (a.count c k).restart = a.restart := rfl
@[simp] theorem Agent.count_devices (a : Agent) (c : AgentCtr) (k : Nat) : (a.count c k).devices = a.devices := rfl
@[simp] theorem Agent.count_fifo (a : Agent) (c : AgentCtr) (k : Nat) : (a.count c k).fifo = a.fifo := rfl
@[simp] theorem Agent.count_masks (a : Agent) (c : AgentCtr) (k : Nat) : (a.count c k).masks = a.masks := rfl
@[simp] theorem Agent.count_holdoff (a : Agent) (c : AgentCtr) (k : Nat) : (a.count c k).holdoff = a.holdoff := rfl
@[simp] theorem Agent.count_dest (a : Agent) (c : AgentCtr) (k : Nat) : (a.count c k).dest = a.dest := rfl
@[simp] theorem Channel.outSlot_count (ch : Channel) (c : ChanCtr) (k : Nat) (x : Letter) : (ch.count c k).outSlot x = ch.outSlot x := by cases x <;> rfl
@[simp] theorem Channel.inSlot_count (ch : Channel) (c : ChanCtr) (k : Nat) (x : Letter) : (ch.count c k).inSlot x = ch.inSlot x := by cases x <;> rfl

/-! ### What the part state and the store say, after an update -/

@[simp] theorem blocked_updChan (c : Chan) (f : Channel → Channel) : blocked (s.updChan c f) = blocked s := rfl
@[simp] theorem blocked_updPort (n : PortId) (f : Port → Port) : blocked (s.updPort n f) = blocked s := rfl
@[simp] theorem blocked_updLane (k : LaneId) (f : Lane → Lane) : blocked (s.updLane k f) = blocked s := rfl
@[simp] theorem blocked_updAgent (f : Agent → Agent) : blocked (s.updAgent f) = blocked s := rfl
@[simp] theorem blocked_updProt (f : Protection → Protection) : blocked (s.updProt f) = blocked s := rfl
@[simp] theorem lockBit_updChan (c : Chan) (f : Channel → Channel) : lockBit (s.updChan c f) = lockBit s := rfl
@[simp] theorem lockBit_updPort (n : PortId) (f : Port → Port) : lockBit (s.updPort n f) = lockBit s := rfl
@[simp] theorem lockBit_updLane (k : LaneId) (f : Lane → Lane) : lockBit (s.updLane k f) = lockBit s := rfl
@[simp] theorem lockBit_updAgent (f : Agent → Agent) : lockBit (s.updAgent f) = lockBit s := rfl
@[simp] theorem lockBit_updProt (f : Protection → Protection) : lockBit (s.updProt f) = lockBit s := rfl
@[simp] theorem noBypass_updChan (c : Chan) (f : Channel → Channel) : noBypass (s.updChan c f) = noBypass s := rfl
@[simp] theorem noBypass_updPort (n : PortId) (f : Port → Port) : noBypass (s.updPort n f) = noBypass s := rfl
@[simp] theorem noBypass_updLane (k : LaneId) (f : Lane → Lane) : noBypass (s.updLane k f) = noBypass s := rfl
@[simp] theorem noBypass_updAgent (f : Agent → Agent) : noBypass (s.updAgent f) = noBypass s := rfl
@[simp] theorem noBypass_updProt (f : Protection → Protection) : noBypass (s.updProt f) = noBypass s := rfl
@[simp] theorem storeRole_updChan (c : Chan) (f : Channel → Channel) : storeRole (s.updChan c f) = storeRole s := rfl
@[simp] theorem storeRole_updPort (n : PortId) (f : Port → Port) : storeRole (s.updPort n f) = storeRole s := rfl
@[simp] theorem storeRole_updLane (k : LaneId) (f : Lane → Lane) : storeRole (s.updLane k f) = storeRole s := rfl
@[simp] theorem storeRole_updAgent (f : Agent → Agent) : storeRole (s.updAgent f) = storeRole s := rfl
@[simp] theorem storeRole_updProt (f : Protection → Protection) : storeRole (s.updProt f) = storeRole s := rfl
@[simp] theorem storeAddr_updChan (c : Chan) (f : Channel → Channel) : storeAddr (s.updChan c f) = storeAddr s := rfl
@[simp] theorem storeAddr_updPort (n : PortId) (f : Port → Port) : storeAddr (s.updPort n f) = storeAddr s := rfl
@[simp] theorem storeAddr_updLane (k : LaneId) (f : Lane → Lane) : storeAddr (s.updLane k f) = storeAddr s := rfl
@[simp] theorem storeAddr_updAgent (f : Agent → Agent) : storeAddr (s.updAgent f) = storeAddr s := rfl
@[simp] theorem storeAddr_updProt (f : Protection → Protection) : storeAddr (s.updProt f) = storeAddr s := rfl
@[simp] theorem storeKey_updChan (c : Chan) (f : Channel → Channel) : storeKey (s.updChan c f) = storeKey s := rfl
@[simp] theorem storeKey_updPort (n : PortId) (f : Port → Port) : storeKey (s.updPort n f) = storeKey s := rfl
@[simp] theorem storeKey_updLane (k : LaneId) (f : Lane → Lane) : storeKey (s.updLane k f) = storeKey s := rfl
@[simp] theorem storeKey_updAgent (f : Agent → Agent) : storeKey (s.updAgent f) = storeKey s := rfl
@[simp] theorem storeKey_updProt (f : Protection → Protection) : storeKey (s.updProt f) = storeKey s := rfl
@[simp] theorem storeSalt_updChan (c : Chan) (f : Channel → Channel) : storeSalt (s.updChan c f) = storeSalt s := rfl
@[simp] theorem storeSalt_updPort (n : PortId) (f : Port → Port) : storeSalt (s.updPort n f) = storeSalt s := rfl
@[simp] theorem storeSalt_updLane (k : LaneId) (f : Lane → Lane) : storeSalt (s.updLane k f) = storeSalt s := rfl
@[simp] theorem storeSalt_updAgent (f : Agent → Agent) : storeSalt (s.updAgent f) = storeSalt s := rfl
@[simp] theorem storeSalt_updProt (f : Protection → Protection) : storeSalt (s.updProt f) = storeSalt s := rfl
@[simp] theorem longCheck_updChan (c : Chan) (f : Channel → Channel) : longCheck (s.updChan c f) = longCheck s := rfl
@[simp] theorem longCheck_updPort (n : PortId) (f : Port → Port) : longCheck (s.updPort n f) = longCheck s := rfl
@[simp] theorem longCheck_updLane (k : LaneId) (f : Lane → Lane) : longCheck (s.updLane k f) = longCheck s := rfl
@[simp] theorem longCheck_updAgent (f : Agent → Agent) : longCheck (s.updAgent f) = longCheck s := rfl
@[simp] theorem longCheck_updProt (f : Protection → Protection) : longCheck (s.updProt f) = longCheck s := rfl

@[simp] theorem State.countChan_eq (c : Chan) (ctr : ChanCtr) (k : Nat) : s.countChan c ctr k = s.updChan c (·.count ctr k) := rfl
@[simp] theorem State.countPort_eq (n : PortId) (ctr : PortCtr) (k : Nat) : s.countPort n ctr k = s.updPort n (·.count ctr k) := rfl
@[simp] theorem State.countLane_eq (k : LaneId) (ctr : LaneCtr) (d : Nat) : s.countLane k ctr d = s.updLane k (·.count ctr d) := rfl
@[simp] theorem State.countAgent_eq (ctr : AgentCtr) : s.countAgent ctr = s.updAgent (·.count ctr) := rfl

end Sys2Proof.Machine
end

