-- ==== Sys2Proof/Laws/Channels.lean ====
section
/-! SUPPORT. What the channel table's shared operations do, said once each. -/

namespace Sys2Proof.Machine
open Sys2Proof.Safety

/-! ### Reports -/

/-- A report of channel kinds changes the channel FIFO and nothing else. -/
theorem reportChan_eq (c : Chan) (ks : KindSet) (s : State) :
    reportChan c ks s = s.updAgent fun a => { a with fifo := if ks = 0 then a.fifo else addKinds c ks a.fifo } := by
  unfold reportChan; split <;> rfl

@[simp] theorem reportChan_channels (c : Chan) (ks : KindSet) (s : State) : (reportChan c ks s).channels = s.channels := by
  rw [reportChan_eq]; rfl
@[simp] theorem reportChan_chan (c d : Chan) (ks : KindSet) (s : State) : (reportChan c ks s).chan d = s.chan d := by
  rw [reportChan_eq]; rfl
@[simp] theorem reportChan_store (c : Chan) (ks : KindSet) (s : State) : (reportChan c ks s).store = s.store := by rw [reportChan_eq]; rfl
@[simp] theorem reportChan_pins (c : Chan) (ks : KindSet) (s : State) : (reportChan c ks s).pins = s.pins := by rw [reportChan_eq]; rfl
@[simp] theorem reportChan_part (c : Chan) (ks : KindSet) (s : State) : (reportChan c ks s).part = s.part := by rw [reportChan_eq]; rfl
@[simp] theorem reportChan_ports (c : Chan) (ks : KindSet) (s : State) : (reportChan c ks s).ports = s.ports := by rw [reportChan_eq]; rfl
@[simp] theorem reportChan_lanes (c : Chan) (ks : KindSet) (s : State) : (reportChan c ks s).lanes = s.lanes := by rw [reportChan_eq]; rfl
@[simp] theorem reportChan_queue (c : Chan) (ks : KindSet) (s : State) : (reportChan c ks s).agent.queue = s.agent.queue := by
  rw [reportChan_eq]; rfl

/-- A report of one kind. -/
theorem reportChan_kindBit (c : Chan) (k : Kind) (s : State) :
    reportChan c (kindBit k) s = s.updAgent fun a => { a with fifo := addKinds c (kindBit k) a.fifo } := by
  unfold reportChan; rw [if_neg (by cases k <;> decide)]

/-- Kinds reported for a channel that waits join its set, at its place (R165). -/
theorem addKinds_present (c : Chan) (ks k : KindSet) (pre post : List (Chan × KindSet)) (h : ∀ e ∈ pre, e.1 ≠ c) :
    addKinds c ks (pre ++ (c, k) :: post) = pre ++ (c, k ||| ks) :: post := by
  induction pre with
  | nil => simp [addKinds]
  | cons e pre ih => simp at h; simp [addKinds, h.1]; exact ih (by simpa using h.2)

/-- Kinds reported for a channel that does not wait join at the tail (R165). -/
theorem addKinds_absent (c : Chan) (ks : KindSet) (fifo : List (Chan × KindSet)) (h : ∀ e ∈ fifo, e.1 ≠ c) : addKinds c ks fifo = fifo ++ [(c, ks)] := by
  induction fifo with
  | nil => rfl
  | cons e pre ih => simp at h; simp [addKinds, h.1]; exact ih (by simpa using h.2)

/-! ### The slot in service (R93) -/

theorem oldSlot_none {ch : Channel} (h : ∀ x, ¬ inService (ch.outSlot x)) : oldSlot ch = none := by
  have ha := h .a; have hb := h .b
  simp only [inService, Channel.outSlot] at ha hb
  simp [oldSlot, ha, hb]

/-- The slot that `oldSlot` names is in service. -/
theorem oldSlot_inService {ch : Channel} {x : Letter} (h : oldSlot ch = some x) : inService (ch.outSlot x) := by
  unfold oldSlot at h; split at h
  · cases h; assumption
  · split at h
    · cases h; assumption
    · cases h

/-- With at most one slot in service, `oldSlot` names it. -/
theorem oldSlot_of_inService {ch : Channel} {x : Letter} (hr : ¬ (inService ch.outA ∧ inService ch.outB)) (h : inService (ch.outSlot x)) :
    oldSlot ch = some x := by
  cases x
  · simp only [inService, Channel.outSlot] at h; simp [oldSlot, h]
  · have : ¬ inService ch.outA := fun h2 => hr ⟨h2, h⟩
    simp only [inService, Channel.outSlot] at h this; simp [oldSlot, h, this]

/-! ### Sequence assignment (R63, R64) -/

/-- The slot after an assignment from a LIVE slot. -/
theorem takeSequence_live {o : OutSlot} (h : o.state = .live) (q : Seq) : takeSequence o q = { o with
      inFlight := o.inFlight + 1
      next := if q.toNat = 2 ^ 48 - 1 then .spent else .seq (q + 1)
      state := if q.toNat = 2 ^ 48 - 1 then .exhausted else .live } := by
  by_cases hq : q.toNat = 2 ^ 48 - 1
  · simp only [takeSequence, Config.lastSeq, hq, if_true]
  · simp only [takeSequence, Config.lastSeq, hq, if_false]; rw [← h]

/-- A switch requested on a record whose slot `x` is in service with a frame in flight. -/
theorem requestSwitch_inFlight {now : Time} {ch : Channel} {x : Letter} (h : oldSlot ch = some x) (hf : 0 < (ch.outSlot x).inFlight) :
    requestSwitch now ch =
      if (ch.outSlot x.other).state = .loaded ∧ (ch.outSlot x.other).epoch ≠ (ch.outSlot x).epoch then
        ((ch.setOut x { ch.outSlot x with state := .draining }).setOut x.other { ch.outSlot x.other with state := .live, switchTime := some now },
          kindBit .switched)
      else (ch, 0) := by
  simp only [requestSwitch, switchMade, makeSwitch, switchTarget, h, retire]
  by_cases h4 : (ch.outSlot x.other).state = .loaded
  · by_cases h5 : (ch.outSlot x.other).epoch = (ch.outSlot x).epoch
    · simp [h4, h5]
    · simp [h4, h5, hf]
  · simp [h4]

/-- When an assignment is the soft-limit event of its load (R64). -/
theorem softEvent_iff {limit : Nat} {o : OutSlot} {q : Seq} : softEvent limit o q = true ↔ q.toNat = limit ∧ o.softHit = false := by simp [softEvent]

/-- An assignment from the slot `x` that is no soft-limit event: away from the soft limit, or after the event of the load. -/
theorem assignFrom_plain {now : Time} {ch : Channel} {x : Letter} {q : Seq}
    (hq : q.toNat ≠ ch.config.softLimit ∨ (ch.outSlot x).softHit = true) :
    assignFrom now ch x q = (ch.setOut x (takeSequence (ch.outSlot x) q), if q.toNat = 2 ^ 48 - 1 then kindBit .halted else 0) := by
  have : ¬ softEvent ch.config.softLimit (ch.outSlot x) q = true := by
    rw [softEvent_iff]; rintro ⟨h1, h2⟩; rcases hq with h | h
    · exact h h1
    · rw [h] at h2; cases h2
  simp only [assignFrom, if_neg this]; rfl

/-- The soft-limit event of the LIVE slot `x`. -/
theorem assignFrom_soft {now : Time} {ch : Channel} {x : Letter} {q : Seq} (hr : ¬ (inService ch.outA ∧ inService ch.outB))
    (hl : (ch.outSlot x).state = .live) (hq : q.toNat = ch.config.softLimit) (hs : (ch.outSlot x).softHit = false) :
    assignFrom now ch x q =
      if ch.config.auto = true ∧ (ch.outSlot x.other).state = .loaded ∧ (ch.outSlot x.other).epoch ≠ (ch.outSlot x).epoch then
        ((ch.setOut x { takeSequence (ch.outSlot x) q with state := .draining, softHit := true }).setOut x.other
            { ch.outSlot x.other with state := .live, switchTime := some now },
          (if q.toNat = 2 ^ 48 - 1 then kindBit .halted else 0) ||| kindBit .soft ||| kindBit .switched)
      else (ch.setOut x { takeSequence (ch.outSlot x) q with softHit := true },
        (if q.toNat = 2 ^ 48 - 1 then kindBit .halted else 0) ||| kindBit .soft) := by
  have hi : inService { takeSequence (ch.outSlot x) q with softHit := true } := by
    rw [takeSequence_live hl]; by_cases h : q.toNat = 2 ^ 48 - 1
    · exact Or.inr (if_pos h)
    · exact Or.inl (if_neg h)
  have ho : oldSlot (ch.setOut x { takeSequence (ch.outSlot x) q with softHit := true }) = some x := by
    apply oldSlot_of_inService
    · rintro ⟨h1, h2⟩; apply hr
      cases x
      · exact ⟨Or.inl hl, h2⟩
      · exact ⟨h1, Or.inl hl⟩
    · simpa using hi
  have hf : 0 < ((ch.setOut x { takeSequence (ch.outSlot x) q with softHit := true }).outSlot x).inFlight := by simp [takeSequence_live hl]
  have he : (takeSequence (ch.outSlot x) q).epoch = (ch.outSlot x).epoch := by rw [takeSequence_live hl]
  have hso : ∀ o1 o2 o3 : OutSlot, ((ch.setOut x o1).setOut x o2).setOut x.other o3 = (ch.setOut x o2).setOut x.other o3 := by
    intro o1 o2 o3; cases x <;> rfl
  have hev : softEvent ch.config.softLimit (ch.outSlot x) q = true := softEvent_iff.2 ⟨hq, hs⟩
  have hk : (if q.toNat = Config.lastSeq then kindBit .halted else 0) = if q.toNat = 2 ^ 48 - 1 then kindBit .halted else 0 := rfl
  unfold assignFrom
  rw [if_pos hev, hk]
  by_cases ha : ch.config.auto = true
  · simp only [ha, if_true]
    rw [requestSwitch_inFlight ho hf]
    simp only [Channel.outSlot_setOut, Letter.other_ne, if_false, if_true, he, true_and, hso]
    split
    · rfl
    · simp only [BitVec.ofNat_eq_ofNat, BitVec.or_zero]
  · simp only [ha, false_and, if_false, BitVec.ofNat_eq_ofNat, BitVec.or_zero, Bool.false_eq_true]

end Sys2Proof.Machine
end

