-- ==== Sys2Proof/Laws/Cipher.lean ====
section
/-! SUPPORT. What the cipher core and the builders of envelope frames answer (R8 to R11): lengths, counter mode byte by byte, and that verify undoes
protect. -/

namespace Sys2Proof.Machine

/-! ### Numbers as bytes -/

@[simp] theorem beBytes_length (n v : Nat) : (beBytes n v).length = n := by
  induction n with
  | zero => rfl
  | succ n ih => simp [beBytes, ih]

/-- A number in big-endian bytes reads back as it was, modulo what the bytes hold. -/
theorem beNat_beBytes (n v : Nat) : beNat (beBytes n v) = v % 256 ^ n := by
  have fold : ∀ n a, (beBytes n v).foldl (fun a b => a * 256 + b.toNat) a = a * 256 ^ n + v % 256 ^ n := by
    intro n
    induction n with
    | zero => intro a; simp [beBytes, Nat.mod_one]
    | succ n ih =>
      intro a
      rw [beBytes, List.foldl_cons, ih, BitVec.toNat_ofNat, Nat.shiftRight_eq_div_pow, pow_mul, show (2 : Nat) ^ 8 = 256 by norm_num,
        Nat.pow_succ, Nat.mod_mul]
      ring
  simpa [beNat] using fold n 0

/-- A field of `n` bytes behind a prefix reads back as the number written. -/
theorem numAt_beBytes (a b : List Byte) (n v : Nat) (h : v < 256 ^ n) : numAt (a ++ beBytes n v ++ b) a.length n = v := by
  have : slice (a ++ beBytes n v ++ b) a.length n = beBytes n v := by
    simp [slice]
  rw [numAt, this, beNat_beBytes, Nat.mod_eq_of_lt h]

/-! ### AES gives 16 bytes -/

@[simp] theorem xorBytes_length (x y : List Byte) : (xorBytes x y).length = min x.length y.length := by simp [xorBytes]

/-- A state of 16 bytes stays one under MixColumns. -/
theorem mixColumns_length {st : List Byte} (h : st.length = 16) : (mixColumns st).length = 16 := by
  match st, h with
  | [_, _, _, _, _, _, _, _, _, _, _, _, _, _, _, _], _ => rfl

/-- The next group of the key schedule has 32 bytes again. -/
theorem nextGroup_length (r : Byte) {g : List Byte} (h : g.length = 32) : (nextGroup r g).length = 32 := by
  simp [nextGroup, keyWord, slice, h]

/-- Every round key has 16 bytes. -/
theorem schedule_length : ∀ (rs : List Byte) (g : List Byte), g.length = 32 → ∀ k ∈ schedule rs g, k.length = 16 := by
  intro rs
  induction rs with
  | nil => intro g h k hk; simp [schedule] at hk; subst hk; simp [h]
  | cons r rs ih =>
    intro g h k hk
    simp only [schedule, List.mem_cons] at hk
    rcases hk with rfl | rfl | hk
    · simp [h]
    · simp [h]
    · exact ih _ (nextGroup_length r h) k hk

theorem rounds_length : ∀ (ks : List (List Byte)) (st : List Byte), (∀ k ∈ ks, k.length = 16) → st.length = 16 → (rounds ks st).length = 16 := by
  intro ks
  induction ks with
  | nil => exact fun st _ h => h
  | cons k ks ih =>
    intro st hk h
    have hk0 := hk k List.mem_cons_self
    rcases ks with _ | ⟨k', ks⟩
    · simp [rounds, shiftRows, hk0]
    · rw [rounds]
      · refine ih _ (fun x hx => hk x (List.mem_cons_of_mem _ hx)) ?_
        rw [xorBytes_length, mixColumns_length (by simp [shiftRows]), hk0]; rfl
      · simp

/-- AES answers a block of 16 bytes with 16 bytes. -/
theorem aes_length (k : Key) {b : List Byte} (h : b.length = 16) : (aes k b).length = 16 := by
  have hk : ∀ x ∈ roundKeys k, x.length = 16 := schedule_length _ _ (beBytes_length _ _)
  unfold aes
  cases hr : roundKeys k with
  | nil => exact h
  | cons k0 ks =>
    rw [hr] at hk
    exact rounds_length _ _ (fun x hx => hk x (List.mem_cons_of_mem _ hx)) (by rw [xorBytes_length, h, hk k0 List.mem_cons_self]; rfl)

/-- A counter block of a 12-byte nonce goes to 16 bytes. -/
theorem aes_counter_length (k : Key) {nonce : List Byte} (hn : nonce.length = 12) (i : Nat) : (aes k (counterBlock nonce i)).length = 16 :=
  aes_length k (by simp [counterBlock, hn])

/-! ### Counter mode and the tag (R10) -/

/-- One block of counter mode before the rest: byte `j` of the text is under byte `j` of the block, or 16 places back in the rest. -/
theorem xor_append_get (b : List Byte) (hb : b.length = 16) (l r : List Byte) (j : Nat) (hr : l.length ≤ 16 → r = []) :
    (xorBytes (l.take 16) b ++ r)[j]? = if j < 16 then l[j]?.map (· ^^^ b.getD j 0) else r[j - 16]? := by
  have hx : (xorBytes (l.take 16) b).length = min 16 l.length := by rw [xorBytes_length, hb, List.length_take]; omega
  by_cases hj : j < 16
  · rw [if_pos hj]
    by_cases hl : j < l.length
    · rw [List.getElem?_append_left (by rw [hx]; omega), xorBytes, List.getElem?_zipWith, List.getElem?_take_of_lt hj, List.getElem?_eq_getElem hl,
        List.getElem?_eq_getElem (by omega : j < b.length), List.getD_eq_getElem _ _ (by omega)]
      rfl
    · rw [hr (by omega), List.append_nil, List.getElem?_eq_none (by rw [hx]; omega), List.getElem?_eq_none (by omega)]; rfl
  · rw [if_neg hj]
    by_cases hl : l.length ≤ 16
    · rw [hr hl, List.append_nil, List.getElem?_eq_none (by rw [hx]; omega)]; rfl
    · rw [List.getElem?_append_right (by rw [hx]; omega), hx, Nat.min_eq_left (by omega)]

/-- Counter mode byte by byte: byte `j` is the text's under byte `j mod 16` of the block of counter `i + j / 16`. -/
theorem ctr_get (k : Key) {nonce : List Byte} (hn : nonce.length = 12) : ∀ (fuel i : Nat) (l : List Byte), l.length ≤ fuel → ∀ j,
    (ctr k nonce fuel i l)[j]? = l[j]?.map (· ^^^ (aes k (counterBlock nonce (i + j / 16))).getD (j % 16) 0) := by
  intro fuel
  induction fuel with
  | zero => intro i l h j; obtain rfl := List.eq_nil_of_length_eq_zero (Nat.le_zero.1 h); simp [ctr]
  | succ fuel ih =>
    intro i l h j
    rcases l with _ | ⟨a, l⟩
    · simp [ctr]
    · have hd : ((a :: l).drop 16).length ≤ fuel := by rw [List.length_drop]; simp only [List.length_cons] at h ⊢; omega
      have h0 : (a :: l).length ≤ 16 → ctr k nonce fuel (i + 1) ((a :: l).drop 16) = [] := fun hl => by
        rw [List.drop_eq_nil_of_le hl]; cases fuel <;> rfl
      rw [ctr, xor_append_get _ (aes_counter_length k hn i) _ _ _ h0]
      by_cases hj : j < 16
      · rw [if_pos hj, Nat.div_eq_of_lt hj, Nat.mod_eq_of_lt hj]; rfl
      · rw [if_neg hj, ih _ _ hd, List.getElem?_drop, show 16 + (j - 16) = j by omega, show i + 1 + (j - 16) / 16 = i + j / 16 by omega,
          show (j - 16) % 16 = j % 16 by omega]
      · exact List.cons_ne_nil a l

/-- The text of a frame under counter mode has the length it had (R10). -/
theorem gcmText_get (k : Key) {nonce : List Byte} (hn : nonce.length = 12) (l : List Byte) (j : Nat) :
    (gcmText k nonce l)[j]? = l[j]?.map (· ^^^ (aes k (counterBlock nonce (2 + j / 16))).getD (j % 16) 0) := ctr_get k hn _ _ _ (le_refl _) j

theorem gcmText_length (k : Key) {nonce : List Byte} (hn : nonce.length = 12) (l : List Byte) : (gcmText k nonce l).length = l.length := by
  apply Nat.le_antisymm
  · exact List.getElem?_eq_none_iff.1 (by rw [gcmText_get k hn, List.getElem?_eq_none (Nat.le_refl _)]; rfl)
  · refine List.getElem?_eq_none_iff.1 ?_
    have h := gcmText_get k hn l (gcmText k nonce l).length
    rw [List.getElem?_eq_none (Nat.le_refl _)] at h
    exact Option.map_eq_none_iff.1 h.symm

/-- Counter mode undoes itself (R11). -/
theorem gcmText_twice (k : Key) {nonce : List Byte} (hn : nonce.length = 12) (l : List Byte) : gcmText k nonce (gcmText k nonce l) = l := by
  apply List.ext_getElem?; intro j
  rw [gcmText_get k hn, gcmText_get k hn, Option.map_map]
  cases l[j]? <;> simp

/-- A tag has 16 bytes (R10). -/
theorem gcmTag_length (k : Key) {nonce : List Byte} (hn : nonce.length = 12) (aad ct : List Byte) : (gcmTag k nonce aad ct).length = 16 := by
  unfold gcmTag; simp only; rw [xorBytes_length, beBytes_length, aes_counter_length k hn]; rfl

/-- A frame verifies if and only if its ciphertext and tag are what protect gives for its text, its authenticated data, key and nonce (R11). -/
theorem verifyText_iff (k : Key) {nonce : List Byte} (hn : nonce.length = 12) (aad ct tag text : List Byte) :
    verifyText k nonce aad ct tag = some text ↔ protectText k nonce aad text = (ct, tag) := by
  unfold verifyText protectText
  simp only [Prod.mk.injEq]
  constructor
  · intro h
    split at h
    · rename_i ht
      simp only [Option.some.injEq] at h; subst h
      rw [gcmText_twice k hn]; exact ⟨rfl, ht.symm⟩
    · cases h
  · rintro ⟨rfl, ht⟩; rw [if_pos ht.symm, gcmText_twice k hn]

/-! ### Envelope frames (R8, R9) -/

@[simp] theorem nonceOf_length (salt : Salt) (h : Header) : (nonceOf salt h).length = 12 := by simp [nonceOf]
@[simp] theorem addrBytes_length (da sa : Addr) : (addrBytes da sa).length = 12 := by simp [addrBytes]
@[simp] theorem headerBytes_length (h : Header) : (headerBytes h).length = 12 := by simp [headerBytes]

/-- The fields of the 24 bytes that begin an envelope frame, whatever follows them (R4, R9, 12.1). -/
theorem envelopeHead_read (da sa : Addr) (h : Header) (rest head : List Byte) (hh : head = addrBytes da sa ++ headerBytes h) :
    numAt (head ++ rest) 0 6 = da.toNat ∧ numAt (head ++ rest) 6 6 = sa.toNat ∧ numAt (head ++ rest) 12 2 = 0x9A3C ∧
    (head ++ rest).getD 14 0 = h.control ∧ (head ++ rest).getD 15 0 = h.epoch ∧
    numAt (head ++ rest) 16 2 = h.chanField.toNat ∧ numAt (head ++ rest) 18 6 = h.seq.toNat := by
  subst hh
  have e : addrBytes da sa ++ headerBytes h ++ rest =
    beBytes 6 da.toNat ++ (beBytes 6 sa.toNat ++ (beBytes 2 Config.marker.toNat ++ (h.control :: h.epoch :: (beBytes 2 h.chanField.toNat ++ (beBytes 6 h.seq.toNat ++ rest))))) := by
    simp [addrBytes, headerBytes]
  rw [e]
  refine ⟨?_, ?_, ?_, ?_, ?_, ?_, ?_⟩
  · simpa using
      numAt_beBytes [] (beBytes 6 sa.toNat ++ (beBytes 2 Config.marker.toNat ++
        (h.control :: h.epoch :: (beBytes 2 h.chanField.toNat ++ (beBytes 6 h.seq.toNat ++ rest))))) 6 da.toNat da.isLt
  · simpa using
      numAt_beBytes (beBytes 6 da.toNat) (beBytes 2 Config.marker.toNat ++
        (h.control :: h.epoch :: (beBytes 2 h.chanField.toNat ++ (beBytes 6 h.seq.toNat ++ rest)))) 6 sa.toNat sa.isLt
  · show _ = Config.marker.toNat
    simpa using
      numAt_beBytes (beBytes 6 da.toNat ++ beBytes 6 sa.toNat) (h.control :: h.epoch :: (beBytes 2 h.chanField.toNat ++
        (beBytes 6 h.seq.toNat ++ rest))) 2 Config.marker.toNat (by decide)
  · simp [List.getD_eq_getElem?_getD, List.getElem?_append]
  · simp [List.getD_eq_getElem?_getD, List.getElem?_append]
  · simpa using
      numAt_beBytes (beBytes 6 da.toNat ++ beBytes 6 sa.toNat ++ beBytes 2 Config.marker.toNat ++
        [h.control, h.epoch]) (beBytes 6 h.seq.toNat ++ rest) 2 h.chanField.toNat h.chanField.isLt
  · simpa using
      numAt_beBytes (beBytes 6 da.toNat ++ beBytes 6 sa.toNat ++ beBytes 2 Config.marker.toNat ++ [h.control, h.epoch] ++
        beBytes 2 h.chanField.toNat) rest 6 h.seq.toNat h.seq.isLt

end Sys2Proof.Machine
end

