-- ==== Sys2Proof/Laws/Lines.lean ====
section
/-! SUPPORT. What the shared operations on tables, lines and queues do, said once each. -/

namespace Sys2Proof.Machine
open Sys2Proof.Safety

/-! ### Timers and kinds -/

/-- A timer whose length has passed is due. -/
theorem timerDue_of_le {now : Time} {r : Timer} (h : r.len ≤ (now - r.start).toNat) : timerDue now (some r) = true := by simpa [timerDue] using h

/-- A kind is a set that is not empty. -/
theorem kindBit_ne_zero (k : Kind) : kindBit k ≠ 0 := by cases k <;> decide

/-! ### Tables -/

/-- An element of a mapped vector. -/
theorem mapVec_get {α β : Type} {n : Nat} (f : α → β) (v : Vector α n) (i : Fin n) : (mapVec f v)[i] = f v[i] := by
  simp [mapVec, Vector.getElem_mk]

/-- The channel table after a cold reset (R36). -/
theorem coldChannels_get (c : Chan) : coldChannels[c] = Channel.cold (decide (c.val < 2)) := by
  simp only [coldChannels, Fin.getElem_fin, Vector.getElem_set, Vector.getElem_replicate]
  split
  · rename_i h; have : c.val < 2 := by omega
    simp [this]
  · split
    · rename_i h; have : c.val < 2 := by omega
      simp [this]
    · have : ¬ c.val < 2 := by omega
      simp [this]

/-- A cold reset leaves what R169 states. -/
theorem coldReset_isCold (pins : Pins) (s : State) (h : s.pins = pins) : IsCold pins s (coldReset s) := by
  subst h
  refine ⟨rfl, rfl, rfl, rfl, rfl, rfl, rfl, fun c => ?_, rfl, rfl, rfl, rfl, fun n => ?_, fun k => ?_, rfl, rfl⟩
  · exact coldChannels_get c
  · simp [coldReset, State.cold, State.port]
  · fin_cases k <;> rfl

/-- A sound core answers the known-answer test as stored, and one that is not does not (R16). -/
@[simp] theorem knownAnswerTest_eq (sound : Bool) : knownAnswerTest sound = sound := by cases sound <;> decide +kernel

/-- The load of channel 0 (R171). -/
theorem loadChannel0_chan_zero (s : State) : Loaded0 s (s.chan 0) ((loadChannel0 s).chan 0) := by
  simp only [loadChannel0, State.updChan_chan_eq]; rfl

/-- The load of channel 0 leaves every other channel. -/
theorem loadChannel0_chan_ne (s : State) (c : Chan) (h : c ≠ 0) : (loadChannel0 s).chan c = s.chan c := by
  simp [loadChannel0, h]

/-! ### The classifier -/

/-- The first entry that matches, in index order (R42). -/
theorem firstMatch_spec (u pos inner) : ∀ (l : List Entry) (k : Nat),
    (firstMatch u pos inner l k = none ∧ ∀ e ∈ l, entryMatches e u pos inner = false) ∨
    ∃ i, ∃ h : i < l.length, firstMatch u pos inner l k = some (k + i, l[i].action) ∧ entryMatches l[i] u pos inner = true ∧
      ∀ j, ∀ hj : j < i, entryMatches (l[j]'(by omega)) u pos inner = false := by
  intro l
  induction l with
  | nil => intro k; left; simp [firstMatch]
  | cons e l ih =>
    intro k
    by_cases he : entryMatches e u pos inner = true
    · right; exact ⟨0, by simp, by simp [firstMatch, he], by simpa using he, by omega⟩
    · rcases ih (k+1) with ⟨h1, h2⟩ | ⟨i, hi, h1, h2, h3⟩
      · left; simp [firstMatch, he, h1]; exact h2
      · right; refine ⟨i+1, by simpa using hi, by simp [firstMatch, he, h1]; omega, by simpa using h2, ?_⟩
        intro j hj; cases j with
        | zero => simpa using he
        | succ j => simpa using h3 j (by omega)

/-- What a lookup answers (R42, R43, R45). -/
theorem beginLookup_spec (s : State) (u pos inner) :
    ((∀ i : Fin 256, entryMatches s.active[i] u pos inner = false) ∧ (beginLookup s u pos inner).hit = none ∧
      (beginLookup s u pos inner).verdict = .noMatch) ∨
    ∃ i : Fin 256, entryMatches s.active[i] u pos inner = true ∧ (∀ j : Fin 256, j < i → entryMatches s.active[j] u pos inner = false) ∧
      (beginLookup s u pos inner).hit = some i ∧ (beginLookup s u pos inner).verdict = verdictOf (noBypass s) inner s.active[i].action := by
  rcases firstMatch_spec u pos inner s.active.toList 0 with ⟨h1, h2⟩ | ⟨i, hi, h1, h2, h3⟩
  · left; refine ⟨fun i => h2 _ (by simp), ?_, ?_⟩ <;> simp [beginLookup, h1]
  · have hi' : i < 256 := by simpa using hi
    right; refine ⟨⟨i, hi'⟩, by simpa using h2, fun j hj => by simpa using h3 j hj, ?_, ?_⟩
    · simp [beginLookup, h1]; apply Fin.ext; simp; omega
    · simp [beginLookup, h1]

/-- A counted hit leaves the ports. -/
@[simp] theorem countHit_port (r s n) : (countHit r s).port n = s.port n := by unfold countHit; split; rfl; split <;> rfl

/-- A counted hit leaves the role. -/
@[simp] theorem countHit_role (r s) : (countHit r s).role = s.role := by unfold countHit; split; rfl; split <;> rfl

/-! ### Frames and lines -/

theorem fcsOf_length (l : List Byte) : (fcsOf l).length = 4 := by simp [fcsOf]

@[simp] theorem withFcs_length (b : List Byte) : (withFcs b).length = b.length + 4 := by simp [withFcs, fcsOf_length]

/-- The body of a frame is what its FCS was put on. -/
@[simp] theorem frameBody_withFcs (b : List Byte) : frameBody (withFcs b) = b := by simp [frameBody, withFcs, fcsOf_length]

/-- A frame that the part builds has a good FCS (R1). -/
@[simp] theorem fcsGood_withFcs (b : List Byte) : fcsGood (withFcs b) = true := by
  simp only [fcsGood, withFcs_length, frameBody_withFcs, Nat.add_sub_cancel]
  simp [withFcs]

/-- An envelope frame is no MAC control frame. -/
theorem isMacControl_of_hasMarker {f : Frame} (h : hasMarker f = true) : isMacControl f = false := by
  simp only [hasMarker, Bool.and_eq_true, beq_iff_eq] at h
  simp only [isMacControl, h.2]; decide

/-- The oldest lookup of an outbound line (R13). -/
theorem lookupIndex_eq (pre post : List OutItem) (f r) (h : ∀ x ∈ pre, ∀ r', x.stage ≠ .lookup r') :
    lookupIndex (pre ++ ⟨f, .lookup r⟩ :: post) = pre.length := by
  unfold lookupIndex
  rw [List.findIdx_append, List.findIdx_eq_length_of_false]
  · simp [List.findIdx_cons]
  · intro x hx; have := h x hx
    split
    · rename_i r' h'; exact absurd h' (this r')
    · rfl

/-- A lookup reads the ACTIVE bank, its count of commits and the identity store alone (R43 to R45). -/
theorem beginLookup_congr {s t : State} (h1 : s.active = t.active) (h2 : s.bankGen = t.bankGen) (h3 : s.store = t.store) (u pos inner) :
    beginLookup s u pos inner = beginLookup t u pos inner := by
  simp only [beginLookup, noBypass, h1, h2, h3]

theorem lookUp_congr {s t : State} (h1 : s.active = t.active) (h2 : s.bankGen = t.bankGen) (h3 : s.store = t.store) (i : InItem) :
    lookUp s i = lookUp t i := by
  cases i <;> simp only [lookUp, beginLookup_congr h1 h2 h3]

theorem beginLookups_congr {s t : State} (h1 : s.active = t.active) (h2 : s.bankGen = t.bankGen) (h3 : s.store = t.store) (l : List InItem) :
    beginLookups s l = beginLookups t l := by
  induction l with
  | nil => rfl
  | cons i rest ih => simp only [beginLookups, lookUp_congr h1 h2 h3, ih]

@[simp] theorem beginLookups_length (s : State) (l : List InItem) : (beginLookups s l).length = l.length := by
  induction l with
  | nil => rfl
  | cons i rest ih => simp only [beginLookups]; split <;> simp [ih]

/-- The lookup of a frame begins when no frame before it holds lookups, and stays as it is otherwise (R44). -/
theorem beginLookups_get (s : State) (l : List InItem) (i : Nat) :
    (beginLookups s l)[i]? = if (l.take (i + 1)).any holdsLookups then l[i]? else l[i]?.map (lookUp s) := by
  induction l generalizing i with
  | nil => simp [beginLookups]
  | cons a rest ih =>
    simp only [beginLookups]
    by_cases ha : holdsLookups a = true
    · simp [ha]
    · cases i with
      | zero => simp [ha]
      | succ i => simp [ha, ih]

/-- The oldest lookup under way of a lane (R44). -/
theorem resultIndex_eq {pre post : List InItem} {x} (hx : underLookup x = true) (h : ∀ a ∈ pre, underLookup a = false) :
    resultIndex (pre ++ x :: post) = pre.length := by
  unfold resultIndex
  rw [List.findIdx_append, List.findIdx_eq_length_of_false (by simpa using h)]
  simp [List.findIdx_cons, hx]

@[simp] theorem beginLookup_gen (s : State) (u pos inner) : (beginLookup s u pos inner).gen = s.bankGen := by unfold beginLookup; split <;> rfl

/-- What beginning its lookup makes of a frame: it stays, or a frame that waited is under a lookup of the ACTIVE bank. -/
theorem lookUp_spec (s : State) (i : InItem) :
    lookUp s i = i ∨ mayLookUp i = true ∧ lookupGen i = none ∧ mayLookUp (lookUp s i) = false ∧ lookupGen (lookUp s i) = some s.bankGen := by
  cases i <;> simp [lookUp, mayLookUp, lookupGen]

theorem beginLookups_mem {s : State} {l : List InItem} {b : InItem} (h : b ∈ beginLookups s l) : ∃ a ∈ l, b = a ∨ b = lookUp s a := by
  induction l with
  | nil => cases h
  | cons i rest ih =>
    simp only [beginLookups] at h
    split at h
    · exact ⟨b, h, .inl rfl⟩
    · rcases List.mem_cons.1 h with rfl | h
      · exact ⟨i, by simp, .inr rfl⟩
      · obtain ⟨a, ha, e⟩ := ih h; exact ⟨a, by simp [ha], e⟩

/-- Lookups that begin keep a line's lookups in order (R44). -/
theorem beginLookups_inOrder {s : State} {l : List InItem} (h : LineInOrder s.bankGen l) : LineInOrder s.bankGen (beginLookups s l) := by
  induction l with
  | nil => exact h
  | cons i rest ih =>
    obtain ⟨hp, hg⟩ := h
    rw [List.pairwise_cons] at hp
    simp only [beginLookups]
    split
    · exact ⟨List.pairwise_cons.2 hp, hg⟩
    · rename_i hi
      obtain ⟨ip, ig⟩ := ih ⟨hp.2, fun a ha => hg a (by simp [ha])⟩
      refine ⟨List.pairwise_cons.2 ⟨fun b hb k hk => ?_, ip⟩, fun a ha => ?_⟩
      · have hk' : k ≤ s.bankGen := ig b hb k hk
        obtain ⟨a, ha, e⟩ := beginLookups_mem hb
        rcases lookUp_spec s i with hs | ⟨hm, -, hs, hgen⟩
        · rw [hs]
          have hmay : mayLookUp i = false := by
            cases i <;> simp_all [lookUp, mayLookUp, holdsLookups]
          refine ⟨hmay, fun g hgi => ?_⟩
          rcases e with rfl | rfl
          · exact (hp.1 b ha k hk).2 g hgi
          · rcases lookUp_spec s a with ha' | ⟨-, -, -, hb'⟩
            · rw [ha'] at hk; exact (hp.1 a ha k hk).2 g hgi
            · rw [hb'] at hk; cases hk; exact hg i (by simp) g hgi
        · refine ⟨hs, fun g hgi => ?_⟩
          rw [hgen] at hgi; cases hgi
          rcases e with rfl | rfl
          · exact absurd (hp.1 b ha k hk).1 (by simp [hm])
          · rcases lookUp_spec s a with ha' | ⟨-, -, -, hb'⟩
            · rw [ha'] at hk; exact absurd (hp.1 a ha k hk).1 (by simp [hm])
            · rw [hb'] at hk; cases hk; exact Nat.le_refl _
      · rcases List.mem_cons.1 ha with rfl | ha
        · intro g hgi
          rcases lookUp_spec s i with hs | ⟨-, -, -, hgen⟩
          · rw [hs] at hgi; exact hg i (by simp) g hgi
          · rw [hgen] at hgi; cases hgi; exact Nat.le_refl _
        · exact ig a ha

/-- A frame under no lookup that joins a line at its end keeps the order (R44). -/
theorem lineInOrder_push {n : Nat} {l : List InItem} {i : InItem} (h : LineInOrder n l) (hi : lookupGen i = none) : LineInOrder n (l ++ [i]) := by
  refine ⟨List.pairwise_append.2 ⟨h.1, List.pairwise_singleton _ _, fun a _ b hb k hk => ?_⟩, fun a ha g hg => ?_⟩
  · rw [List.mem_singleton.1 hb, hi] at hk; cases hk
  · rcases List.mem_append.1 ha with ha | ha
    · exact h.2 a ha g hg
    · rw [List.mem_singleton.1 ha, hi] at hg; cases hg

/-- A frame that leaves a line keeps the order (R44). -/
theorem lineInOrder_erase {n : Nat} {l : List InItem} (i : Nat) (h : LineInOrder n l) : LineInOrder n (l.eraseIdx i) :=
  ⟨h.1.sublist (List.eraseIdx_sublist ..), fun a ha => h.2 a ((List.eraseIdx_sublist ..).subset ha)⟩

/-- A frame that goes on to a stage under no lookup, and awaits one only where it might have before, keeps the order (R44). -/
theorem lineInOrder_set {n : Nat} {l : List InItem} {i : Nat} {a b : InItem} (h : LineInOrder n l) (ha : l[i]? = some a) (hb : lookupGen b = none)
    (hm : mayLookUp b = true → mayLookUp a = true) : LineInOrder n (l.set i b) := by
  induction l generalizing i with
  | nil => cases ha
  | cons x rest ih =>
    obtain ⟨hp, hg⟩ := h
    rw [List.pairwise_cons] at hp
    cases i with
    | zero =>
      cases (by simpa using ha : x = a)
      refine ⟨List.pairwise_cons.2 ⟨fun y hy k hk => ⟨?_, fun g hg' => by rw [hb] at hg'; cases hg'⟩, hp.2⟩, fun y hy g hy' => ?_⟩
      · by_contra hc; exact absurd (hp.1 y hy k hk).1 (by simp [hm (by simpa using hc)])
      · rcases List.mem_cons.1 hy with rfl | hy
        · rw [hb] at hy'; cases hy'
        · exact hg y (by simp [hy]) g hy'
    | succ i =>
      obtain ⟨ip, ig⟩ := ih ⟨hp.2, fun y hy => hg y (by simp [hy])⟩ (by simpa using ha)
      refine ⟨List.pairwise_cons.2 ⟨fun y hy k hk => ?_, ip⟩, fun y hy => ?_⟩
      · rcases List.mem_or_eq_of_mem_set hy with hy | rfl
        · exact hp.1 y hy k hk
        · rw [hb] at hk; cases hk
      · rcases List.mem_cons.1 hy with rfl | hy
        · exact hg y (by simp)
        · exact ig y hy

/-- Lookups begun in a line touch that line alone (R44). -/
@[simp] theorem startLookups_lane (s : State) (k : LaneId) :
    s.startLookups (.lane k) = s.updLane k fun l => { l with inLine := beginLookups s (s.lane k).inLine } := rfl
@[simp] theorem startLookups_port (s : State) (n : PortId) :
    s.startLookups (.port n) = s.updPort n fun p => { p with mgmtLine := beginLookups s (s.port n).mgmtLine } := rfl

/-- The port a lane is bound to (R76). -/
theorem boundPort_of_steering (k n) (s : State)
    (h : k.val = n.val ∧ s.prot.steering ≠ some n ∨ k = 4 ∧ s.prot.steering = some n) :
    boundPort s k = some n := by
  rcases h with ⟨h, h1⟩ | ⟨h, h1⟩
  · have : portOfLane k = some n := by simp [portOfLane, h]
    simp [boundPort, this, h1]
  · subst h; simp [boundPort, portOfLane, h1]

/-! ### Slots and windows -/

/-- No slot of an epoch (R79). -/
theorem selectSlot_none {ch : Channel} {e} (h : ∀ x, (ch.inSlot x).state = .empty ∨ (ch.inSlot x).epoch ≠ some e) : selectSlot ch e = none := by
  have ha := h .a; have hb := h .b
  simp only [Channel.inSlot] at ha hb
  unfold selectSlot; rw [if_neg (by tauto), if_neg (by tauto)]

/-- The slot of an epoch (R79). -/
theorem selectSlot_some {ch : Channel} {e x} (hr : RolloverOk ch) (h1 : (ch.inSlot x).state ≠ .empty) (h2 : (ch.inSlot x).epoch = some e) :
    selectSlot ch e = some x := by
  unfold selectSlot
  cases x <;> simp only [Channel.inSlot] at h1 h2
  · rw [if_pos ⟨h1, h2⟩]
  · rw [if_neg, if_pos ⟨h1, h2⟩]
    rintro ⟨h3, h4⟩; exact hr.2.2.2 h3 h1 (by rw [h4, h2])

/-- The marks after one more (R81). -/
theorem insertMark_mem (q m : Nat) (l : List Nat) : m ∈ insertMark q l ↔ m = q ∨ m ∈ l := by
  induction l with
  | nil => simp [insertMark]
  | cons a l ih =>
    simp only [insertMark]; split
    · simp
    · split
      · rename_i h; subst h; simp
      · simp [ih]; tauto

/-! ### The control queue -/

/-- The first frame of a kind leaves its queue. -/
theorem takeFirst_eq {p : CtlFrame → Bool} {pre post f} (h1 : p f = true) (h2 : ∀ x ∈ pre, p x = false) :
    takeFirst p (pre ++ f :: post) = some (f, pre ++ post) := by
  induction pre with
  | nil => simp [takeFirst, h1]
  | cons a pre ih =>
    simp [takeFirst, h2 a (by simp), ih (fun x hx => h2 x (by simp [hx]))]

/-- A queue without the kind. -/
theorem takeFirst_none {p : CtlFrame → Bool} {l} (h2 : ∀ x ∈ l, p x = false) : takeFirst p l = none := by
  induction l with
  | nil => rfl
  | cons a pre ih =>
    simp [takeFirst, h2 a (by simp), ih (fun x hx => h2 x (by simp [hx]))]

/-- The pick from a control queue by strict priority (R122). -/
theorem takeControl_eq {pre post : List CtlFrame} {f} (h : f.kind = .beacon ∧ (∀ x ∈ pre, x.kind ≠ .beacon) ∨
     f.kind ≠ .beacon ∧ f.kind ≠ .test ∧ (∀ x ∈ pre ++ post, x.kind ≠ .beacon) ∧ (∀ x ∈ pre, x.kind = .test) ∨
     f.kind = .test ∧ pre = [] ∧ ∀ x ∈ post, x.kind = .test) : takeControl (pre ++ f :: post) = some (f, pre ++ post) := by
  unfold takeControl
  rcases h with ⟨h1, h2⟩ | ⟨h1, h2, h3, h4⟩ | ⟨h1, rfl, h3⟩
  · rw [takeFirst_eq (by simp [h1]) (by intro x hx; simpa using h2 x hx)]
  · rw [takeFirst_none (by
      intro x hx; simp at hx; rcases hx with hx | rfl | hx
      · simpa using h3 x (by simp [hx])
      · simpa using h1
      · simpa using h3 x (by simp [hx])), takeFirst_eq]
    · cases hk : f.kind <;> simp_all
    · intro x hx; simp [h4 x hx]
  · rw [takeFirst_none, takeFirst_none]
    · exact takeFirst_eq (p := fun f => f.kind == CtlKind.test) (pre := []) (by simp [h1]) (by simp)
    · intro x hx; simp at hx; rcases hx with rfl | hx
      · simp [h1]
      · simp [h3 x hx]
    · intro x hx; simp at hx; rcases hx with rfl | hx
      · simp [h1]
      · simp [h3 x hx]

/-! ### The sender -/

/-- A frame in hand stays (R161). -/
theorem settle_of_hand {s : State} {h : Hand} (hh : s.agent.hand = some h) : settle s = s := by
  have h1 : takeReply s = s := by simp [takeReply, hh]
  simp [settle, h1, buildNotice, noticeDue, hh]

/-- With nothing in hand, no reply waiting and no notice due the sender does nothing (R161, R167). -/
theorem settle_of_idle {s : State} (hh : s.agent.hand = none) (hr : s.agent.reply = none) (hn : noticeDue s = false) : settle s = s := by
  have h1 : takeReply s = s := by simp [takeReply, hh, hr]
  simp [settle, h1, buildNotice, hn]

end Sys2Proof.Machine
end

