-- ==== Sys2Proof/Laws/Frames.lean ====
section
/-! SUPPORT. What the readers of frames, headers and messages answer (R1, R3, R4, R157), what a count adds (R20) and what the window update leaves
(R81). -/

namespace Sys2Proof.Machine

/-! ### Numbers in strings of bytes -/

/-- A number read from `n` bytes is below 256 to the `n`. -/
theorem numAt_lt (l : List Byte) (i n : Nat) : numAt l i n < 256 ^ n := by
  have fold : ∀ (l : List Byte) (a : Nat), l.foldl (fun a b => a * 256 + b.toNat) a < (a + 1) * 256 ^ l.length := by
    intro l
    induction l with
    | nil => intro a; simp
    | cons x l ih =>
      intro a
      have hx := x.isLt
      calc _ < (a * 256 + x.toNat + 1) * 256 ^ l.length := ih _
        _ ≤ ((a + 1) * 256) * 256 ^ l.length := Nat.mul_le_mul_right _ (by omega)
        _ = (a + 1) * 256 ^ (x :: l).length := by rw [List.length_cons, pow_succ]; ring
  calc numAt l i n < 256 ^ (slice l i n).length := by simpa [numAt, beNat] using fold (slice l i n) 0
    _ ≤ 256 ^ n := Nat.pow_le_pow_right (by omega) (by simp [slice])

/-- Reading behind a prefix is reading further on. -/
theorem numAt_drop (l : List Byte) (p i n : Nat) : numAt (l.drop p) i n = numAt l (p + i) n := by simp [numAt, slice, List.drop_drop]

/-- Two bytes, the first the more significant. -/
theorem numAt_two (l : List Byte) {i : Nat} (h : i + 2 ≤ l.length) : numAt l i 2 = (l.getD i 0).toNat * 256 + (l.getD (i + 1) 0).toNat := by
  have : (l.drop i).take 2 = [l.getD i 0, l.getD (i + 1) 0] := by
    apply List.ext_getElem?; intro j
    rcases j with _ | _ | j
    · simp; rw [List.getElem?_eq_getElem (by omega)]; simp
    · simp; rw [List.getElem?_eq_getElem (by omega)]; simp
    · simp
  simp [numAt, slice, beNat, this]

/-- A part between two others, found by the length of the first. -/
theorem slice_append (a b c : List Byte) : slice (a ++ b ++ c) a.length b.length = b := by simp [slice]

/-! ### Inner bytes and headers (R1, R4) -/

@[simp] theorem innerBytes_length (f : Frame) : (innerBytes f).length = f.length - 16 := by simp [innerBytes, frameBody]; omega

/-- An inner byte is the byte of the frame 12 places on, where the FCS does not begin. -/
theorem innerBytes_getD {f : Frame} {i : Nat} (h : i + 17 ≤ f.length) : (innerBytes f).getD i 0 = f.getD (12 + i) 0 := by
  simp only [innerBytes, frameBody, List.getD_eq_getElem?_getD, List.getElem?_drop, List.getElem?_take]
  rw [if_pos (by omega)]

/-- Two inner bytes as a number. -/
theorem word16_innerBytes {f : Frame} {i : Nat} (h : i + 18 ≤ f.length) : (word16 (innerBytes f) i).toNat = numAt f (12 + i) 2 := by
  rw [word16, innerBytes_getD (by omega), innerBytes_getD (by omega), numAt_two f (by omega), BitVec.toNat_ofNat]
  have a := (f.getD (12 + i) 0).isLt
  have b := (f.getD (12 + (i + 1)) 0).isLt
  rw [show 12 + i + 1 = 12 + (i + 1) by omega]; omega

/-- The fields of a header that stands before the FCS (R4, 12.1). -/
theorem headerOf_read {f : Frame} (h : 28 ≤ f.length) : (headerOf f).control = f.getD 14 0 ∧ (headerOf f).epoch = f.getD 15 0 ∧
    (headerOf f).chanField.toNat = numAt f 16 2 ∧ (headerOf f).seq.toNat = numAt f 18 6 := by
  refine ⟨innerBytes_getD (i := 2) (by omega), innerBytes_getD (i := 3) (by omega), word16_innerBytes (i := 4) (by omega), ?_⟩
  have : numAt (innerBytes f) 6 6 = numAt f 18 6 := by
    unfold numAt; congr 1
    apply List.ext_getElem?; intro j
    simp only [slice, innerBytes, frameBody, List.getElem?_take, List.getElem?_drop]
    split
    · rw [if_pos (by omega)]; congr 1; omega
    · rfl
  have lt := numAt_lt f 18 6
  simp only [headerOf, BitVec.toNat_ofNat, this]; omega

/-! ### Requests (R157) -/

/-- Directives as counted, each from the place where the one before ends: none when they run past the end, else each read in its place (R157). -/
theorem parseDirectives_spec (msg : List Byte) (pos : Nat → Nat) (hp : ∀ j, pos (j + 1) = pos j + 3 + numAt msg (pos j + 1) 2) : ∀ n j : Nat,
    (msg.length < pos (j + n) → pos j ≤ msg.length → parseDirectives n (msg.drop (pos j)) = none) ∧
    (pos (j + n) ≤ msg.length → ∃ ds, parseDirectives n (msg.drop (pos j)) = some (ds, msg.drop (pos (j + n))) ∧ ds.length = n ∧
      ∀ i d, ds[i]? = some d → d.code = msg.getD (pos (j + i)) 0 ∧ d.ops = slice msg (pos (j + i) + 3) (numAt msg (pos (j + i) + 1) 2)) := by
  have mono : ∀ n j, pos j ≤ pos (j + n) := by
    intro n
    induction n with
    | zero => intro j; exact le_refl _
    | succ n ih => intro j; have := ih j; rw [← Nat.add_assoc, hp]; omega
  intro n
  induction n with
  | zero => exact fun j => ⟨fun h h' => absurd h (by simp; omega), fun _ => ⟨[], rfl, rfl, by simp⟩⟩
  | succ n ih =>
    intro j
    have hj := hp j
    have hm := mono n (j + 1)
    have hd : (msg.drop (pos j)).drop (3 + numAt msg (pos j + 1) 2) = msg.drop (pos (j + 1)) := by rw [List.drop_drop, hj]; congr 1; omega
    obtain ⟨i1, i2⟩ := ih (j + 1)
    rw [show j + (n + 1) = j + 1 + n by omega, parseDirectives]
    simp only [numAt_drop, hd, List.length_drop]
    refine ⟨fun h1 h2 => ?_, fun h1 => ?_⟩
    · split; rfl
      split; rfl
      rw [i1 h1 (by omega)]; rfl
    · rw [if_neg (by omega), if_neg (by omega)]
      obtain ⟨ds, e1, e2, e3⟩ := i2 h1
      refine ⟨_, by rw [e1]; rfl, by simp [e2], fun i d hi => ?_⟩
      rcases i with _ | i
      · obtain rfl := by simpa using hi
        exact ⟨by simp [List.getD_eq_getElem?_getD], by simp [slice, List.drop_drop]⟩
      · have := e3 i d (by simpa using hi)
        rwa [show j + 1 + i = j + (i + 1) by omega] at this

/-! ### Counters and windows (R20, R81) -/

/-- A counter goes up by what is counted and stays at its greatest value (R20). -/
theorem addCounter_toNat (c : Counter) (k : Nat) : (addCounter c k).toNat = min (c.toNat + k) (2 ^ 48 - 1) := by
  unfold addCounter; split <;> simp <;> omega

/-- One counter of a vector goes up, the others stay (R20). -/
theorem bumpAt_get {n : Nat} (v : Vector Counter n) (i j : Fin n) (k : Nat) : (bumpAt v i k)[j] = if j = i then addCounter v[j] k else v[j] := by
  by_cases h : j = i
  · subst h; simp [bumpAt]
  · rw [if_neg h]; exact Vector.getElem_set_ne _ _ (fun e => h (Fin.ext e.symm))

theorem chanCtrIdx_inj {a b : ChanCtr} (h : chanCtrIdx a = chanCtrIdx b) : a = b := by cases a <;> cases b <;> first | rfl | exact absurd h (by decide)
theorem portCtrIdx_inj {a b : PortCtr} (h : portCtrIdx a = portCtrIdx b) : a = b := by cases a <;> cases b <;> first | rfl | exact absurd h (by decide)
theorem agentCtrIdx_inj {a b : AgentCtr} (h : agentCtrIdx a = agentCtrIdx b) : a = b := by cases a <;> cases b <;> first | rfl | exact absurd h (by decide)

/-- A mark set stays ascending when a mark joins it. -/
theorem insertMark_pairwise (q : Nat) (l : List Nat) (h : l.Pairwise (· < ·)) : (insertMark q l).Pairwise (· < ·) := by
  induction l with
  | nil => simp [insertMark]
  | cons a l ih =>
    obtain ⟨h1, h2⟩ := List.pairwise_cons.1 h
    unfold insertMark
    split
    · rename_i hq
      exact List.pairwise_cons.2 ⟨fun b hb => (List.mem_cons.1 hb).elim (fun e => e ▸ hq) fun hb => hq.trans (h1 b hb), h⟩
    · split
      · exact h
      · refine List.pairwise_cons.2 ⟨fun b hb => ?_, ih h2⟩
        rcases (insertMark_mem q b l).1 hb with rfl | hb
        · omega
        · exact h1 b hb

/-! ### Envelope frames and recovered frames (R2, R4) -/

/-- A frame built of addresses, a header and what follows reads back as such (R4). -/
theorem envelopeFrame_read (da sa : Addr) (h : Header) (rest : List Byte) (f : Frame) (hf : f = withFcs (addrBytes da sa ++ headerBytes h ++ rest)) :
    headerOf f = h ∧ frameDa f = da ∧ frameSa f = sa ∧ f.length = rest.length + 28 ∧ hasMarker f = true ∧ fcsGood f = true := by
  obtain ⟨h1, h2, h3, h4, h5, h6, h7⟩ := envelopeHead_read da sa h (rest ++ fcsOf (addrBytes da sa ++ headerBytes h ++ rest)) _ rfl
  have e : f = addrBytes da sa ++ headerBytes h ++ (rest ++ fcsOf (addrBytes da sa ++ headerBytes h ++ rest)) := by
    rw [hf, withFcs]; simp only [List.append_assoc]
  rw [← e] at h1 h2 h3 h4 h5 h6 h7
  have fl : f.length = rest.length + 28 := by rw [hf, withFcs_length]; simp; omega
  obtain ⟨a, b, c, d⟩ := headerOf_read (f := f) (by omega)
  refine ⟨?_, by unfold frameDa; rw [h1]; simp, by unfold frameSa; rw [h2]; simp, fl, ?_, by rw [hf]; exact fcsGood_withFcs _⟩
  · rw [h4] at a; rw [h5] at b; rw [h6] at c; rw [h7] at d
    generalize headerOf f = k at a b c d
    obtain ⟨k1, k2, k3, k4⟩ := k; obtain ⟨h1', h2', h3', h4'⟩ := h
    simp only at a b c d
    rw [a, b, BitVec.eq_of_toNat_eq c, BitVec.eq_of_toNat_eq d]
  · have : word16 (innerBytes f) 0 = Config.marker := BitVec.eq_of_toNat_eq (by rw [word16_innerBytes (by omega), h3]; rfl)
    unfold hasMarker; rw [this, innerBytes_length]; simp; omega

/-- The recovered inner frame: the envelope's addresses, the text padded until the frame has 64 bytes, a new FCS (R2, R85). -/
theorem recoveredFrame_eq {f : Frame} (h : 12 ≤ f.length) (text : List Byte) :
    recoveredFrame f text = withFcs (f.take 12 ++ text ++ List.replicate (48 - text.length) 0) := by
  unfold recoveredFrame padTo; congr 3; simp; omega

end Sys2Proof.Machine
end

