-- ==== Sys2Proof/Laws/Operands.lean ====
section
/-! SUPPORT. What the shared readers of operands answer, said once each. -/

namespace Sys2Proof.Machine

/-- A channel number names its channel. -/
theorem chanOf_val {n} {c : Chan} (h : c.val = n) : chanOf n = some c := by
  subst h; simp [chanOf]

/-- A number beyond 1023 names no channel (R17). -/
theorem chanOf_ge {n} (h : 1024 ≤ n) : chanOf n = none := by
  simp [chanOf]; omega

/-- A bank index names its entry. -/
theorem indexOf_val {n} {c : Fin 256} (h : c.val = n) : indexOf n = some c := by
  subst h; simp [indexOf]

/-- A number beyond 255 names no entry. -/
theorem indexOf_ge {n} (h : 256 ≤ n) : indexOf n = none := by
  simp [indexOf]; omega

/-- A port number names its port. -/
theorem portIdOf_val {n} {c : PortId} (h : c.val = n) : portIdOf n = some c := by
  subst h; simp [portIdOf]

/-- A number beyond 3 names no port. -/
theorem portIdOf_ge {n} (h : 4 ≤ n) : portIdOf n = none := by simp [portIdOf]; omega

/-- A lane number names its lane. -/
theorem laneIdOf_val {n} {c : LaneId} (h : c.val = n) : laneIdOf n = some c := by
  subst h; simp [laneIdOf]

/-- A number beyond 4 names no lane. -/
theorem laneIdOf_ge {n} (h : 5 ≤ n) : laneIdOf n = none := by simp [laneIdOf]; omega

/-- The fields that depend on each other, as R50 states them. -/
theorem entryFormat_iff (fs : FieldList) : entryFormat fs = true ↔
    ((given fs 5 = true ↔ fieldNat fs 4 = some 2) ∧ (given fs 8 = true ↔ fieldNat fs 7 = some 0)) := by
  unfold entryFormat; rw [Bool.and_eq_true, beq_iff_eq, beq_iff_eq]
  constructor
  · rintro ⟨h1, h2⟩; rw [h1, h2]; simp
  · rintro ⟨h1, h2⟩; constructor
    · rw [Bool.eq_iff_iff, h1]; simp
    · rw [Bool.eq_iff_iff, h2]; simp

/-- The bytes a field list is read from are its fields, each a number byte and its value in the width of the layout (12.4.2). -/
theorem readFields_iff (layout : List (Nat × Nat)) : ∀ (fuel : Nat) (bytes : List Byte) (fs : FieldList), bytes.length ≤ fuel →
    (readFields layout fuel bytes = some fs ↔
      bytes = fs.flatMap (fun f => BitVec.ofNat 8 f.1 :: f.2) ∧ ∀ f ∈ fs, f.1 < 256 ∧ layout.lookup f.1 = some f.2.length) := by
  intro fuel
  induction fuel with
  | zero =>
    intro bytes fs h
    obtain rfl := List.eq_nil_of_length_eq_zero (Nat.le_zero.1 h)
    cases fs <;> simp [readFields]
  | succ fuel ih =>
    intro bytes fs h
    rcases bytes with _ | ⟨n, rest⟩
    · cases fs <;> simp [readFields]
    · rw [readFields]
      constructor
      · intro e
        split at e
        · cases e
        · rename_i w hw
          split at e
          · cases e
          · rename_i hl
            obtain ⟨gs, hg, rfl⟩ := Option.map_eq_some_iff.1 e
            obtain ⟨e1, e2⟩ := (ih _ _ (by simp at h ⊢; omega)).1 hg
            refine ⟨by rw [List.flatMap_cons, ← e1]; simp, fun f hf => ?_⟩
            rcases List.mem_cons.1 hf with rfl | hf
            · exact ⟨n.isLt, by simp [hw]; omega⟩
            · exact e2 f hf
      · rintro ⟨e1, e2⟩
        rcases fs with _ | ⟨⟨i, b⟩, fs⟩
        · simp at e1
        · obtain ⟨hi, hw⟩ := e2 _ List.mem_cons_self
          simp only [List.flatMap_cons, List.cons_append, List.cons.injEq] at e1
          obtain ⟨rfl, rfl⟩ := e1
          have hn : (BitVec.ofNat 8 i).toNat = i := by simp; omega
          rw [hn, hw]
          simp only [List.length_append, List.drop_left, List.take_left]
          rw [if_neg (by omega), (ih _ fs (by simp at h ⊢; omega)).2 ⟨rfl, fun f hf => e2 f (List.mem_cons_of_mem _ hf)⟩]
          rfl

/-- A field list is accepted exactly when it is fields of its layout one after another, no number twice (R177). -/
theorem fieldList_iff (layout : List (Nat × Nat)) (bytes : List Byte) (fs : FieldList) : fieldList layout bytes = some fs ↔
    (bytes = fs.flatMap (fun f => BitVec.ofNat 8 f.1 :: f.2) ∧ ∀ f ∈ fs, f.1 < 256 ∧ layout.lookup f.1 = some f.2.length) ∧ (fs.map Prod.fst).Nodup := by
  rw [← readFields_iff layout _ bytes fs (Nat.le_refl _), fieldList]
  cases h : readFields layout bytes.length bytes with
  | none => simp
  | some gs =>
    by_cases hn : (gs.map Prod.fst).Nodup
    · simp only [noRepeats, hn, decide_true, if_true, Option.some.injEq]; exact ⟨fun e => ⟨e, e ▸ hn⟩, And.left⟩
    · simp only [noRepeats, hn, decide_false, Bool.false_eq_true, if_false, Option.some.injEq, reduceCtorEq, false_iff]
      rintro ⟨rfl, h⟩; exact hn h

/-- A lookup by a key that stands once finds what stands there. -/
theorem lookup_iff {α : Type} : ∀ (fs : List (Nat × α)), (fs.map Prod.fst).Nodup → ∀ i b, fs.lookup i = some b ↔ (i, b) ∈ fs := by
  intro fs
  induction fs with
  | nil => simp
  | cons f fs ih =>
    obtain ⟨j, a⟩ := f
    intro h i b
    obtain ⟨h1, h2⟩ := List.nodup_cons.1 h
    rw [List.lookup_cons]
    by_cases hi : i = j
    · subst hi
      simp only [beq_self_eq_true, List.mem_cons, Prod.mk.injEq, true_and, Option.some.injEq]
      constructor
      · intro e; exact Or.inl e.symm
      · rintro (e | e)
        · exact e.symm
        · exact absurd (List.mem_map_of_mem (f := Prod.fst) e) h1
    · rw [beq_false_of_ne hi]; simp only [List.mem_cons, Prod.mk.injEq, hi, false_and, false_or]; exact ih h2 i b

/-- One copy of a move writes the destination and nothing else (R54). -/
theorem copyEntry_get {b : Bank} {src dst i : Nat} (hs : src < 256) (h : i < 256) : (copyEntry b src dst)[i] = if i = dst then b[src] else b[i] := by
  have : b.getD src Entry.cleared = b[src] := by simp [Vector.getD, hs]
  rw [copyEntry, this]
  by_cases hi : i = dst <;> simp [hi, eq_comm (a := dst)]

end Sys2Proof.Machine
end

