-- ==== Sys2Proof/Laws/Protection.lean ====
section
/-! SUPPORT. What the shared operations of protection switching do, said once each: cutting and moving service, the steering, adoption, the arbiter's
run. -/

namespace Sys2Proof.Machine
open Sys2Proof.Safety

/-! ### Device reports -/

theorem reportDevice_eq (k : Kind) (s : State) : reportDevice k s = { s with agent := { s.agent with devices := s.agent.devices ||| kindBit k } } := rfl

@[simp] theorem reportDevice_lane (k : Kind) (s : State) (j : LaneId) : (reportDevice k s).lane j = s.lane j := rfl
@[simp] theorem reportDevice_prot (k : Kind) (s : State) : (reportDevice k s).prot = s.prot := rfl
@[simp] theorem reportDevice_role (k : Kind) (s : State) : (reportDevice k s).role = s.role := rfl
@[simp] theorem reportDevice_time (k : Kind) (s : State) : (reportDevice k s).time = s.time := rfl
@[simp] theorem reportDevice_devices (k : Kind) (s : State) : (reportDevice k s).agent.devices = s.agent.devices ||| kindBit k := rfl

/-! ### Service that moves (R135) -/

/-- A transmission of a frame of buffer `n` is cut and counted; any other transmission leaves the state as it is. -/
theorem cutBuffer_spec (k : LaneId) (n : PortId) (s : State) :
    ((∃ bytes p, (s.lane k).tx = some { bytes, source := .buffer n p }) →
      cutBuffer k n s = s.updLane k fun l => ({ l with tx := none }).count .lostOnSwitch) ∧
    ((∀ bytes p, (s.lane k).tx ≠ some { bytes, source := .buffer n p }) → cutBuffer k n s = s) := by
  constructor
  · rintro ⟨bytes, p, h⟩; simp only [cutBuffer, h, if_true]
  · intro h; unfold cutBuffer
    split
    · rename_i bytes m p heq
      split
      · subst_vars; exact absurd heq (h _ _)
      · rfl
    · rfl

/-- A cut touches the lanes alone. -/
theorem cutBuffer_eq (k : LaneId) (n : PortId) (s : State) : cutBuffer k n s = { s with lanes := (cutBuffer k n s).lanes } := by
  unfold cutBuffer; split
  · split <;> rfl
  · rfl

@[simp] theorem cutBuffer_prot (k : LaneId) (n : PortId) (s : State) : (cutBuffer k n s).prot = s.prot := by rw [cutBuffer_eq]
@[simp] theorem cutBuffer_agent (k : LaneId) (n : PortId) (s : State) : (cutBuffer k n s).agent = s.agent := by rw [cutBuffer_eq]

/-- The lane of a cut. -/
theorem cutBuffer_lane_eq (k : LaneId) (n : PortId) (s : State) : ServiceCut n (s.lane k) ((cutBuffer k n s).lane k) := by
  refine ⟨fun h => ?_, fun h => ?_⟩
  · rw [(cutBuffer_spec k n s).1 h, State.updLane_lane_eq]; exact ⟨rfl, by simp [Lane.ctr, Lane.count, bumpAt]⟩
  · rw [(cutBuffer_spec k n s).2 h]; exact ⟨rfl, rfl⟩

/-- A cut leaves every other lane. -/
theorem cutBuffer_lane_ne {k j : LaneId} (n : PortId) (s : State) (h : j ≠ k) : (cutBuffer k n s).lane j = s.lane j := by
  unfold cutBuffer; split
  · split
    · simp [h]
    · rfl
  · rfl

/-- Of a lane a cut touches its transmission and the lost-on-switch counter alone. -/
def OnlyCut (l m : Lane) : Prop := m = { l with tx := m.tx, counters := m.counters } ∧ ∀ ctr, ctr ≠ .lostOnSwitch → m.ctr ctr = l.ctr ctr

theorem OnlyCut.refl (l : Lane) : OnlyCut l l := ⟨rfl, fun _ _ => rfl⟩

theorem OnlyCut.trans {l m n : Lane} (h1 : OnlyCut l m) (h2 : OnlyCut m n) : OnlyCut l n := by
  refine ⟨?_, fun ctr h => (h2.2 ctr h).trans (h1.2 ctr h)⟩
  rw [h2.1, h1.1]

/-- A counter index names its counter. -/
theorem laneCtrIdx_inj {a b : LaneCtr} (h : laneCtrIdx a = laneCtrIdx b) : a = b := by cases a <;> cases b <;> first | rfl | exact absurd h (by decide)

/-- A counted event moves its own counter. -/
theorem Lane.ctr_count (l : Lane) (c d : LaneCtr) (k : Nat) : (l.count c k).ctr d = if d = c then addCounter (l.ctr d) k else l.ctr d := by
  by_cases h : d = c
  · subst h; simp [Lane.ctr, Lane.count, bumpAt]
  · have : laneCtrIdx c ≠ laneCtrIdx d := fun e => h (laneCtrIdx_inj e).symm
    have h2 : (laneCtrIdx c).val ≠ (laneCtrIdx d).val := fun e => this (Fin.ext e)
    simp only [Lane.ctr, Lane.count, bumpAt, h, if_false, Fin.getElem_fin, Vector.getElem_set_ne _ _ h2]

theorem cutBuffer_onlyCut (k j : LaneId) (n : PortId) (s : State) : OnlyCut (s.lane j) ((cutBuffer k n s).lane j) := by
  by_cases h : j = k
  · subst h
    by_cases hb : ∃ bytes p, (s.lane j).tx = some { bytes, source := .buffer n p }
    · rw [(cutBuffer_spec j n s).1 hb, State.updLane_lane_eq]
      refine ⟨rfl, fun ctr hc => ?_⟩
      rw [Lane.ctr_count, if_neg hc]; rfl
    · rw [(cutBuffer_spec j n s).2 (fun b p e => hb ⟨b, p, e⟩)]; exact OnlyCut.refl _
  · rw [cutBuffer_lane_ne n s h]; exact OnlyCut.refl _

/-- L4 is the lane of no port. -/
@[simp] theorem laneOfPort_ne_standby (n : PortId) : laneOfPort n ≠ standby := by intro h; have := congrArg Fin.val h; simp [laneOfPort, standby] at this; omega

theorem laneOfPort_inj {n m : PortId} (h : laneOfPort n = laneOfPort m) : n = m := by have := congrArg Fin.val h; simpa [laneOfPort, Fin.ext_iff] using this

/-- A change of the bridging moves the service of the two buffers and sets PROTECT (R135). -/
theorem moveBridging_moved {a b : Option PortId} (h : a ≠ b) (s : State) : BridgingMoved a b s (moveBridging a b s) := by
  have h4 : standby = 4 := rfl
  refine ⟨fun e => absurd e h, fun _ => ⟨fun n ha => ?_, fun ha => ?_, fun m => ⟨fun hb => ?_, fun hb => ?_⟩⟩⟩
  · subst ha; cases b with
    | none => exact cutBuffer_lane_eq 4 n s
    | some m =>
      simp only [moveBridging, reportDevice_lane]
      rw [← h4, cutBuffer_lane_ne m _ (laneOfPort_ne_standby m).symm]; exact cutBuffer_lane_eq 4 n s
  · subst ha; cases b with
    | none => exact absurd rfl h
    | some m =>
      simp only [moveBridging, reportDevice_lane, ServiceKept]
      rw [← h4, cutBuffer_lane_ne m _ (laneOfPort_ne_standby m).symm]; exact ⟨rfl, rfl⟩
  · subst hb; cases a with
    | none => exact cutBuffer_lane_eq (laneOfPort m) m s
    | some n =>
      have := cutBuffer_lane_eq (laneOfPort m) m (cutBuffer standby n s)
      rw [cutBuffer_lane_ne n s (laneOfPort_ne_standby m)] at this
      exact this
  · have hn : ∀ n, b = some n → laneOfPort m ≠ laneOfPort n := fun n e h' => hb (by rw [e, laneOfPort_inj h'])
    cases a <;> cases b <;> simp only [moveBridging, reportDevice_lane, ServiceKept]
    · exact ⟨trivial, trivial⟩
    · rw [cutBuffer_lane_ne _ _ (hn _ rfl)]; exact ⟨rfl, rfl⟩
    · rw [cutBuffer_lane_ne _ _ (laneOfPort_ne_standby m)]; exact ⟨rfl, rfl⟩
    · rw [cutBuffer_lane_ne _ _ (hn _ rfl), cutBuffer_lane_ne _ _ (laneOfPort_ne_standby m)]; exact ⟨rfl, rfl⟩

/-- A change of the bridging touches transmissions, their counter and the PROTECT notice alone. -/
theorem moveBridging_frame (a b : Option PortId) (s : State) :
    moveBridging a b s = { s with
      lanes := (moveBridging a b s).lanes, agent := { s.agent with devices := s.agent.devices ||| kindBit .protect } } ∧
    ∀ k, OnlyCut (s.lane k) ((moveBridging a b s).lane k) := by
  constructor
  · cases a <;> cases b <;> simp only [moveBridging, reportDevice_eq]
    · rw [cutBuffer_eq]
    · rw [cutBuffer_eq]
    · rw [cutBuffer_eq, cutBuffer_eq standby]
  · intro k
    cases a <;> cases b <;> simp only [moveBridging, reportDevice_lane]
    · exact OnlyCut.refl _
    · exact cutBuffer_onlyCut _ _ _ _
    · exact cutBuffer_onlyCut _ _ _ _
    · exact (cutBuffer_onlyCut _ _ _ _).trans (cutBuffer_onlyCut _ _ _ _)

/-! ### What every operation of the controller keeps -/

/-- From `s` to `t` only what protection switching moves has changed: transmissions cut, the controller's own state, and device notices. -/
def Switched (s t : State) : Prop :=
  (∀ k, OnlyCut (s.lane k) (t.lane k)) ∧
  t.prot = { s.prot with
    selection := t.prot.selection, classes := t.prot.classes, wtrTimer := t.prot.wtrTimer, steering := t.prot.steering, echo := t.prot.echo
    candidate := t.prot.candidate, adoptCount := t.prot.adoptCount } ∧
  (∃ d, t.agent = { s.agent with devices := s.agent.devices ||| d }) ∧ t = { s with lanes := t.lanes, prot := t.prot, agent := t.agent }

theorem Switched.refl (s : State) : Switched s s := ⟨fun _ => OnlyCut.refl _, rfl, ⟨0, by simp⟩, rfl⟩

theorem Switched.trans {s t u : State} (h1 : Switched s t) (h2 : Switched t u) : Switched s u := by
  refine ⟨fun k => (h1.1 k).trans (h2.1 k), ?_, ?_, ?_⟩
  · rw [h2.2.1, h1.2.1]
  · obtain ⟨d, hd⟩ := h1.2.2.1; obtain ⟨e, he⟩ := h2.2.2.1
    exact ⟨d ||| e, by rw [he, hd, BitVec.or_assoc]⟩
  · rw [h2.2.2.2, h1.2.2.2]

/-- The role, the time and the pins stay. -/
theorem Switched.role {s t : State} (h : Switched s t) : t.role = s.role := by rw [h.2.2.2]
theorem Switched.time {s t : State} (h : Switched s t) : t.time = s.time := by rw [h.2.2.2]
theorem Switched.farFail {s t : State} (h : Switched s t) : t.prot.farFail = s.prot.farFail := by rw [h.2.1]
/-- A device kind that was pending is pending still. -/
theorem Switched.devices {s t : State} (h : Switched s t) {i : Nat} (hi : s.agent.devices.getLsbD i = true) : t.agent.devices.getLsbD i = true := by
  obtain ⟨d, hd⟩ := h.2.2.1; rw [hd]; simp [hi]
/-- What a lane keeps. -/
theorem Switched.lane {s t : State} (h : Switched s t) (k : LaneId) :
    t.lane k = { s.lane k with tx := (t.lane k).tx, counters := (t.lane k).counters } := (h.1 k).1

theorem reportDevice_switched (k : Kind) (s : State) : Switched s (reportDevice k s) := ⟨fun _ => OnlyCut.refl _, rfl, ⟨kindBit k, rfl⟩, rfl⟩

theorem moveBridging_switched (a b : Option PortId) (s : State) : Switched s (moveBridging a b s) := by
  obtain ⟨h1, h2⟩ := moveBridging_frame a b s
  refine ⟨h2, ?_, ⟨kindBit .protect, ?_⟩, ?_⟩ <;> rw [h1]

/-- A run of the arbiter leaves steering, echo and adoption run. -/
theorem runArbiter_switched (s : State) : Switched s (runArbiter s) ∧ (runArbiter s).prot = { s.prot with
    selection := (runArbiter s).prot.selection, classes := (runArbiter s).prot.classes, wtrTimer := (runArbiter s).prot.wtrTimer } := by
  unfold runArbiter
  cases s.role with
  | campus => exact ⟨Switched.refl s, rfl⟩
  | rack =>
    simp only
    split
    · exact ⟨⟨fun _ => OnlyCut.refl _, rfl, ⟨0, by simp⟩, rfl⟩, rfl⟩
    · generalize hu : s.updProt _ = u
      have hs : Switched s u := by subst hu; exact ⟨fun _ => OnlyCut.refl _, rfl, ⟨0, by simp⟩, rfl⟩
      refine ⟨hs.trans (moveBridging_switched _ _ u), ?_⟩
      rw [(moveBridging_frame _ _ u).1, ← hu]; rfl

@[simp] theorem runArbiter_steering (s : State) : (runArbiter s).prot.steering = s.prot.steering := by rw [(runArbiter_switched s).2]
@[simp] theorem runArbiter_echo (s : State) : (runArbiter s).prot.echo = s.prot.echo := by rw [(runArbiter_switched s).2]
@[simp] theorem runArbiter_candidate (s : State) : (runArbiter s).prot.candidate = s.prot.candidate := by rw [(runArbiter_switched s).2]
@[simp] theorem runArbiter_adoptCount (s : State) : (runArbiter s).prot.adoptCount = s.prot.adoptCount := by rw [(runArbiter_switched s).2]
@[simp] theorem runArbiter_role (s : State) : (runArbiter s).role = s.role := (runArbiter_switched s).1.role
/-- Without the standby lane a RACK part's selection is none (R133). -/
theorem runArbiter_unavailable {s : State} (hr : s.role = .rack) (h : standbyAvailable s = false) : (runArbiter s).prot.selection = none := by
  have ha : ∀ c sel, arbiter false c sel = none := fun c sel => by simp [arbiter]
  unfold runArbiter; rw [hr]; simp only [h, ha]
  split
  · rename_i he; simp only [State.updProt_prot]; rw [← he]
  · rw [(moveBridging_frame _ _ _).1]; rfl

theorem setSteering_switched (p : Option PortId) (s : State) : Switched s (setSteering p s) := by
  unfold setSteering; split
  · exact Switched.refl s
  · exact ⟨fun _ => OnlyCut.refl _, rfl, ⟨kindBit .protect, rfl⟩, rfl⟩

/-- The steering is what it was set to, and no other field of the controller moves (R136). -/
theorem setSteering_prot (p : Option PortId) (s : State) : (setSteering p s).prot = { s.prot with steering := p } := by
  unfold setSteering; split
  · rename_i h; rw [← h]
  · rfl

theorem adopt_switched (v : Option PortId) (s : State) : Switched s (adopt v s) :=
  Switched.trans (t := s.updProt fun p => { p with echo := v, steering := v }) ⟨fun _ => OnlyCut.refl _, rfl, ⟨0, by simp⟩, rfl⟩ (moveBridging_switched _ _ _)

/-- An adoption moves echo and steering together (R137). -/
theorem adopt_prot (v : Option PortId) (s : State) : (adopt v s).prot = { s.prot with echo := v, steering := v } := by
  rw [adopt, (moveBridging_frame _ _ _).1]; rfl

theorem clearAdoption_switched (s : State) : Switched s (clearAdoption s) := ⟨fun _ => OnlyCut.refl _, rfl, ⟨0, by simp [clearAdoption]⟩, rfl⟩

theorem judgeAdoption_switched (v : Option PortId) (s : State) : Switched s (judgeAdoption v s) := by
  unfold judgeAdoption
  generalize hu : (if v = s.prot.candidate then _ else _ : State) = u
  have hs : Switched s u := by subst hu; split <;> exact ⟨fun _ => OnlyCut.refl _, rfl, ⟨0, by simp⟩, rfl⟩
  simp only
  split
  · exact hs.trans (adopt_switched _ u)
  · exact hs

theorem standbyLost_switched (s : State) : Switched s (standbyLost s) := by
  unfold standbyLost; cases s.role with
  | rack => exact setSteering_switched none s
  | campus =>
    simp only; split
    · exact clearAdoption_switched s
    · exact (clearAdoption_switched s).trans (adopt_switched none _)

/-- A change of a lane's state moves that state, and what protection switching moves (R127, R131, R136, R137, R140). -/
theorem setLaneState_switched (k : LaneId) (st : LaneState) (s : State) :
    Switched (s.updLane k fun l => { l with state := st }) (setLaneState k st s) := by
  unfold setLaneState
  split
  · rename_i h; subst h
    have : (s.updLane k fun l => { l with state := (s.lane k).state }) = s := by
      exact (State.updLane_congr s (g := id) rfl).trans (by simp [State.updLane])
    rw [this]; exact Switched.refl s
  · simp only
    refine Switched.trans (reportDevice_switched .lane _) (Switched.trans ?_ (runArbiter_switched _).1)
    split
    · exact standbyLost_switched _
    · exact Switched.refl _

/-- A change of a lane's loop mode moves that mode, and what a run of the arbiter moves (R131, R143). -/
theorem setLoopMode_switched (k : LaneId) (m : LoopMode) (s : State) :
    Switched (s.updLane k fun l => { l with loopMode := m }) (setLoopMode k m s) := by
  unfold setLoopMode; simp only; split
  · exact (runArbiter_switched _).1
  · exact Switched.refl _

/-! ### The far-fail set of a beacon (R125) -/

/-- Bit `k` of the far-fail set is 1 exactly when lane `k` is LOS or DARK. -/
theorem failedSet_bit (s : State) (k : LaneId) : (failedSet s).getLsbD k.val = laneFailed s k := by
  have h : ∀ (a b c d e : Bool) (k : LaneId), (BitVec.ofNat 5 ((if a then 1 else 0) + (if b then 2 else 0) + (if c then 4 else 0) +
    (if d then 8 else 0) + (if e then 16 else 0))).getLsbD k.val = (#v[a, b, c, d, e] : Vector Bool 5)[k] := by decide
  unfold failedSet; rw [h]; fin_cases k <;> rfl

end Sys2Proof.Machine
end

