-- ==== Sys2Proof/Laws/Runner.lean ====
section
/-! SUPPORT. A directive command carried out: what `Ready` gives, and what the runner leaves. -/

namespace Sys2Proof.Machine
open Sys2Proof.Safety

/-! ### Taking a directive changes the runner's request and nothing else -/

@[simp] theorem taken_pins (s : State) : (taken s).pins = s.pins := rfl
@[simp] theorem taken_part (s : State) : (taken s).part = s.part := rfl
@[simp] theorem taken_role (s : State) : (taken s).role = s.role := rfl
@[simp] theorem taken_ownAddr (s : State) : (taken s).ownAddr = s.ownAddr := rfl
@[simp] theorem taken_store (s : State) : (taken s).store = s.store := rfl
@[simp] theorem taken_burn (s : State) : (taken s).burn = s.burn := rfl
@[simp] theorem taken_time (s : State) : (taken s).time = s.time := rfl
@[simp] theorem taken_channels (s : State) : (taken s).channels = s.channels := rfl
@[simp] theorem taken_staging (s : State) : (taken s).staging = s.staging := rfl
@[simp] theorem taken_active (s : State) : (taken s).active = s.active := rfl
@[simp] theorem taken_shadow (s : State) : (taken s).shadow = s.shadow := rfl
@[simp] theorem taken_hits (s : State) : (taken s).hits = s.hits := rfl
@[simp] theorem taken_bankGen (s : State) : (taken s).bankGen = s.bankGen := rfl
@[simp] theorem taken_move (s : State) : (taken s).move = s.move := rfl
@[simp] theorem taken_ports (s : State) : (taken s).ports = s.ports := rfl
@[simp] theorem taken_lanes (s : State) : (taken s).lanes = s.lanes := rfl
@[simp] theorem taken_prot (s : State) : (taken s).prot = s.prot := rfl
@[simp] theorem taken_lastRecord (s : State) : (taken s).lastRecord = s.lastRecord := rfl
@[simp] theorem taken_free (s : State) : (taken s).free = s.free := rfl
@[simp] theorem taken_pending (s : State) : (taken s).pending = s.pending := rfl
@[simp] theorem taken_chan (s : State) (c : Chan) : (taken s).chan c = s.chan c := rfl
@[simp] theorem taken_port (s : State) (n : PortId) : (taken s).port n = s.port n := rfl
@[simp] theorem taken_lane (s : State) (k : LaneId) : (taken s).lane k = s.lane k := rfl
@[simp] theorem taken_agent_queue (s : State) : (taken s).agent.queue = s.agent.queue := rfl
@[simp] theorem taken_agent_reply (s : State) : (taken s).agent.reply = s.agent.reply := rfl
@[simp] theorem taken_agent_hand (s : State) : (taken s).agent.hand = s.agent.hand := rfl
@[simp] theorem taken_agent_restart (s : State) : (taken s).agent.restart = s.agent.restart := rfl
@[simp] theorem taken_agent_devices (s : State) : (taken s).agent.devices = s.agent.devices := rfl
@[simp] theorem taken_agent_fifo (s : State) : (taken s).agent.fifo = s.agent.fifo := rfl
@[simp] theorem taken_agent_masks (s : State) : (taken s).agent.masks = s.agent.masks := rfl
@[simp] theorem taken_agent_holdoff (s : State) : (taken s).agent.holdoff = s.agent.holdoff := rfl
@[simp] theorem taken_agent_dest (s : State) : (taken s).agent.dest = s.agent.dest := rfl
@[simp] theorem taken_agent_counters (s : State) : (taken s).agent.counters = s.agent.counters := rfl
@[simp] theorem blocked_taken (s : State) : blocked (taken s) = blocked s := rfl
@[simp] theorem lockBit_taken (s : State) : lockBit (taken s) = lockBit s := rfl
@[simp] theorem noBypass_taken (s : State) : noBypass (taken s) = noBypass s := rfl
@[simp] theorem storeKey_taken (s : State) : storeKey (taken s) = storeKey s := rfl
@[simp] theorem storeSalt_taken (s : State) : storeSalt (taken s) = storeSalt s := rfl
@[simp] theorem statusCode_taken (s : State) : statusCode (taken s) = statusCode s := rfl

/-! ### A directive that can run -/

/-- No directive follows a RESTART: while one is pending a directive command is no event (R169). -/
theorem takeDirective_restarting {code : Byte} {ops : List Byte} {s : State} {r : Timer} (h : s.agent.restart = some r) :
    takeDirective code ops s = s := by
  unfold takeDirective; rw [if_pos (by simp [h])]

/-- A TIME-READ waits while the counter stands at the time that an earlier one of its request reported (R92; log 38). -/
theorem timeWaits_iff {s : State} : timeWaits s = true ↔ ∃ r d rest, s.agent.run = some r ∧ r.rest = d :: rest ∧ d.code = codeTimeRead ∧
    { code := codeTimeRead, outcome := .done, data := beBytes 8 s.time.toNat } ∈ r.records := by
  unfold timeWaits
  cases hr : s.agent.run with
  | none => simp
  | some r =>
    rcases r with ⟨id, place, sa, rest, records⟩
    cases rest <;> simp

/-- A directive command that waits for the counter is no event yet (R92; log 38). -/
theorem takeDirective_waits {code : Byte} {ops : List Byte} {s : State} (h : timeWaits s = true) : takeDirective code ops s = s := by
  unfold takeDirective; rw [if_pos (by simp [h])]

/-- The directive is the last of its request, or stands outside one, as a flag. -/
def lastFlag (s : State) : Bool :=
  match s.agent.run with
  | some r => (r.rest.drop 1).isEmpty
  | none => true

/-- A directive that can run is carried out, and the sender is judged. -/
theorem takeDirective_ready {code : Byte} {ops : List Byte} {s : State} (h : Ready code ops s) :
    takeDirective code ops s = settle (carryOut (lastFlag s) { code, ops } (taken s)) := by
  obtain ⟨hb, ho, hre, hw, hr⟩ := h
  unfold takeDirective
  rw [if_neg (by simp [hb, ho, hre, hw])]
  rcases hr with hr | ⟨r, rest, hr, hrest, hbud⟩
  · have : taken s = s := by
      unfold taken State.updAgent; simp only [hr, Option.map_none]; rw [← hr]
    simp only [hr, this, lastFlag]
  · simp only [hr, hrest, List.head?_cons, if_true, runOne, hbud, lastFlag, List.drop_one, List.tail_cons]
    congr 2
    unfold taken State.updAgent; simp only [hr, Option.map_some, hrest, List.drop_one, List.tail_cons]

/-- A directive that can run and ends at once. -/
theorem takeDirective_ended {code : Byte} {ops : List Byte} {s t : State} {o : DirOutcome} {data : List Byte} (h : Ready code ops s)
    (hp : perform (lastFlag s) { code, ops } (taken s) = .ended o data t) : takeDirective code ops s = ended code o data t := by
  rw [takeDirective_ready h, carryOut, hp]; rfl

/-- A directive that can run and begins an operation. -/
theorem takeDirective_begun {code : Byte} {ops : List Byte} {s t : State} (h : Ready code ops s)
    (hp : perform (lastFlag s) { code, ops } (taken s) = .begun t) : takeDirective code ops s = settle t := by
  rw [takeDirective_ready h, carryOut, hp]

/-- A reply message is as long as the budget test counts (R159). -/
theorem replyMessage_length (id : BitVec 16) (status : Nat) (rs : List Record) : (replyMessage id status rs).length = messageSize rs := by
  have hr : ∀ r, (recordBytes r).length = 4 + r.data.length := by intro r; simp [recordBytes]; omega
  simp [replyMessage, messageSize, List.length_flatMap, hr]; omega

/-- A directive command that runs while an operation is under way or the part is blocked changes nothing (R54, R158, R174). -/
theorem takeDirective_busy {s : State} (h : opBusy s = true ∨ blocked s = true) (code : Byte) (ops : List Byte) : takeDirective code ops s = s := by
  unfold takeDirective; rw [if_pos (by rcases h with h | h <;> simp [h])]

end Sys2Proof.Machine
end

