-- ==== Sys2Proof/WellFormed.lean ====
section
/-! DEFINITION. Which commands can be sent: the bounds that the wire's own length fields put on them. -/

namespace Sys2Proof

/-- The operand bytes of a directive are counted by a 2-byte length (R157, 12.3). -/
def operandsWf (ops : List Byte) : Bool := ops.length < 65536

/-- A frame on a port or lane holds at least one byte. -/
def frameWf (f : Frame) : Bool := !f.isEmpty

/-- The runner carries out at most the 32 directives of one request in one step (R157). -/
def countWf (n : Nat) : Bool := n ≤ 32

/-- Well-formed commands. -/
def Instr.wf : Instr → Bool
  | .powerOn _ => true
  | .resetNAssert => true
  | .resetNRelease => true
  | .selfCheckCompletion _ _ _ => true
  | .zeroizeNAssert => true
  | .zeroizeNRelease => true
  | .losAssert _ => true
  | .losRelease _ => true
  | .innerFrameArrival _ f _ => frameWf f
  | .outboundLookupEnd _ => true
  | .protectCompletion _ _ => true
  | .outboundBufferEntry _ => true
  | .laneFrameArrival _ f _ => frameWf f
  | .inboundLookupEnd _ => true
  | .verifyCompletion _ _ => true
  | .returnCheck _ _ => true
  | .inboundHandOn _ => true
  | .continuityTimerExpiry _ => true
  | .beaconTimerExpiry _ => true
  | .rateTimerExpiry _ => true
  | .controlQueueOffer _ => true
  | .laneTransmitStart _ => true
  | .laneTransmitEnd _ => true
  | .portTransmitPause _ => true
  | .portTransmitQueueFrame _ => true
  | .portTransmitEnd _ => true
  | .pauseRefreshExpiry _ => true
  | .pauseHoldExpiry _ => true
  | .graceExpiry _ _ => true
  | .scheduleDue _ => true
  | .wtrExpiry => true
  | .holdoffExpiry => true
  | .runnerTakeRequest n => countWf n
  | .senderSend => true
  | .restartTimeout => true
  | .chanOpen ops => operandsWf ops
  | .chanSet ops => operandsWf ops
  | .chanClose ops => operandsWf ops
  | .chanRead ops => operandsWf ops
  | .keyStage ops => operandsWf ops
  | .keyCommit ops => operandsWf ops
  | .keyErase ops => operandsWf ops
  | .switchNow ops => operandsWf ops
  | .switchAt ops => operandsWf ops
  | .switchCancel ops => operandsWf ops
  | .timeRead ops => operandsWf ops
  | .ruleWrite ops => operandsWf ops
  | .rulePatch ops => operandsWf ops
  | .ruleClear ops => operandsWf ops
  | .ruleRead ops => operandsWf ops
  | .ruleMove ops => operandsWf ops
  | .ruleMoveCompletion => true
  | .tableCommit ops => operandsWf ops
  | .tableRevert ops => operandsWf ops
  | .portSet ops => operandsWf ops
  | .laneSet ops => operandsWf ops
  | .loopSet ops => operandsWf ops
  | .testSet ops => operandsWf ops
  | .testInject ops => operandsWf ops
  | .countSweep ops => operandsWf ops
  | .portCounts ops => operandsWf ops
  | .statusRead ops => operandsWf ops
  | .noticeMask ops => operandsWf ops
  | .idRead ops => operandsWf ops
  | .idBurn ops => operandsWf ops
  | .idBurnCompletion => true
  | .zeroize ops => operandsWf ops
  | .restart ops => operandsWf ops
  | .timeCounterCount => true

end Sys2Proof
end

