-- ==== Sys2Proof/Tests/Slice0.lean ====
section
/-! SUPPORT. Tests: well-formedness, published vectors, the manual's examples, one step of the commands, and witnesses for the hypotheses of the statements. -/

open Sys2Proof Sys2Proof.Machine Sys2Proof.Safety

namespace Tests

set_option Elab.async false

/-! ### Helpers -/

/-- A part that runs unlocked, right after reset. -/
def idle : State := { State.reset with part := .unprovisioned }

/-- A part that runs locked, with a check word that makes the store sum to 0. -/
def locked : State := { State.reset with part := .running, store := ((Vector.replicate 32 0).set 4 1).set 31 0xFFFF }

/-- The state after commands. -/
def after (s : State) : List Instr → State
  | [] => s
  | c :: rest =>
    match exec c s with
    | .next t => after t rest
    | _ => s

/-- The outcome and data of a directive given outside a request. -/
def record (s : State) (l : List Instr) : Option (DirOutcome × List Byte) := (after s l).lastRecord.map fun r => (r.outcome, r.data)

/-- An inner frame of `len` bytes of type 0x0800 that is no management frame. -/
def plain (len : Nat) : Frame := withFcs ([9, 9, 9, 9, 9, 9, 8, 8, 8, 8, 8, 8, 0x08, 0x00] ++ List.replicate (len - 18) 1)

/-- A frame whose FCS is wrong. -/
def spoiled : Frame := List.replicate 64 0

/-- A MAC control frame with an opcode and quanta. -/
def control (opcode quanta : Nat) : Frame :=
  withFcs (padTo 60 (addrBytes Config.pauseAddr 5 ++ [0x88, 0x08] ++ beBytes 2 opcode ++ beBytes 2 quanta))

/-- A CLEAR frame to the part with a message. -/
def clearTo (s : State) (field : BitVec 16) (msg : List Byte) : Frame :=
  clearFrame s.ownAddr 6 { control := 0x60, epoch := 0, chanField := field, seq := 1 } (padMessage 28 msg)

/-- A request with one TIME-READ directive. -/
def askTime : List Byte := [0, 7, 1, 0x23, 0, 0]

/-! ### Well-formedness: an ill-formed term for each check -/

theorem wf_operands_refused : operandsWf (List.replicate 65536 0) = false := by rw [operandsWf, List.length_replicate]; decide
theorem wf_operands_taken : operandsWf (List.replicate 65535 0) = true := by rw [operandsWf, List.length_replicate]; decide
theorem wf_frame_refused : (Instr.laneFrameArrival 0 [] false).wf = false := by decide
theorem wf_count_refused : (Instr.runnerTakeRequest 33).wf = false := by decide

/-! ### Published vectors (FIPS 197, SP 800-38D, IEEE 802.3; logs 3 and 4) -/

theorem test_kcv_zero_key : kcvOf 0 = 0xDC95C0 := by decide +kernel
theorem test_gcm_empty_text :
    protectText 0 (List.replicate 12 0) [] [] =
      ([], [0x53, 0x0F, 0x8A, 0xFB, 0xC7, 0x45, 0x36, 0xB9, 0xA9, 0x63, 0xB4, 0xF1, 0xC4, 0xCB, 0x73, 0x8B]) := by decide +kernel
theorem test_gcm_one_block :
    protectText 0 (List.replicate 12 0) [] (List.replicate 16 0) =
      ([0xCE, 0xA7, 0x40, 0x3D, 0x4D, 0x60, 0x6B, 0x6E, 0x07, 0x4E, 0xC5, 0xD3, 0xBA, 0xF3, 0x9D, 0x18],
       [0xD0, 0xD1, 0xC8, 0xA7, 0x99, 0x99, 0x6B, 0xF0, 0x26, 0x5B, 0x98, 0xB5, 0xD4, 0x8A, 0xB9, 0x19]) := by decide +kernel
theorem test_crc32 : crc32 [0x31, 0x32, 0x33, 0x34, 0x35, 0x36, 0x37, 0x38, 0x39] = 0xCBF43926 := by decide +kernel

/-- The known-answer test of R16 on the published vector: it passes on a sound core alone. -/
theorem test_known_answer : knownAnswerTest true = true ∧ knownAnswerTest false = false ∧ expectedAnswers.kcv = 0xDC95C0 := by decide +kernel

/-! ### The envelope (chapter 1, worked examples) -/

/-- The nonces of the two directions. -/
theorem test_nonce_rack : nonceOf 0x5A17C3E0 ⟨0x40, 4, 0x0025, 300⟩ = [0x5A, 0x17, 0xC3, 0xE0, 0, 0x25, 0, 0, 0, 0, 1, 0x2C] := by decide
theorem test_nonce_campus : nonceOf 0x5A17C3E0 ⟨0x40, 4, 0x8025, 300⟩ = [0x5A, 0x17, 0xC3, 0xE0, 0x80, 0x25, 0, 0, 0, 0, 1, 0x2C] := by decide
/-- The header of the traffic frame. -/
theorem test_header : headerBytes ⟨0x40, 4, chanFieldOf false 37, 300⟩ = [0x9A, 0x3C, 0x40, 4, 0, 0x25, 0, 0, 0, 0, 1, 0x2C] := by decide

/-- A frame of `len` bytes with a header. -/
def enveloped (control : Byte) (field : BitVec 16) (n : Seq) (len : Nat) : Frame :=
  withFcs (addrBytes 9 8 ++ headerBytes ⟨control, 0, field, n⟩ ++ List.replicate (len - 28) 0)

/-- The header verdicts. -/
theorem test_verdicts_good : malformed (enveloped 0x40 37 1 92) = false ∧ malformed (enveloped 0x60 0 1 64) = false := by decide +kernel
theorem test_verdicts_flags :
    malformed (enveloped 0x48 37 1 92) = true ∧ malformed (enveloped 0x58 1 1 92) = true ∧ malformed (enveloped 0x40 1 1 92) = true := by
  decide +kernel
theorem test_verdicts_rest :
    malformed (enveloped 0x40 0 1 40) = true ∧ malformed (enveloped 0x40 37 0 92) = true ∧ malformed (enveloped 0x80 37 1 92) = true := by
  decide +kernel

/-- The bounds of each field of the header verdict: version, reserved bits, sequence, and the lengths of R3. -/
theorem test_verdicts_bounds :
    malformed (enveloped 0x40 0 1 46) = false ∧ malformed (enveloped 0x40 0 1 45) = true ∧ malformed (enveloped 0x60 0 1 30) = false ∧
    malformed (enveloped 0x60 0 1 29) = true ∧ malformed (enveloped 0x00 0 1 92) = true ∧ malformed (enveloped 0x41 0 1 92) = true ∧
    malformed (enveloped 0x44 0 1 92) = true ∧ malformed (enveloped 0x40 0x4000 1 92) = true ∧ malformed (enveloped 0x40 0x0400 1 92) = true ∧
    malformed (enveloped 0x40 0x83FF 1 92) = false ∧ malformed (enveloped 0x60 2 1 92) = true ∧ malformed (enveloped 0x48 1 1 92) = false := by
  decide +kernel
/-- The marker is read before the FCS only (log 42): a frame of 18 bytes can carry it, one of 17 cannot. -/
theorem test_marker_places : hasMarker (List.replicate 12 9 ++ [0x9A, 0x3C, 0, 0, 0, 0]) = true ∧
    hasMarker (List.replicate 12 9 ++ [0x9A, 0x3C, 0, 0, 0]) = false := by decide

/-! ### The replay window (chapters 2 and 5, worked examples) -/

/-- The window re-marked by W = 16, 256 and 0. -/
theorem test_remark :
    remark 16 1000 = List.range' 985 16 ∧ remark 256 1000 = List.range' 745 256 ∧ remark 0 1000 = [] ∧ remark 16 0 = [] := by decide +kernel
theorem test_remarked_window :
    windowTest 16 1000 (remark 16 1000) 1001 = .fresh ∧ windowTest 16 1000 (remark 16 1000) 990 = .replay ∧
    windowTest 16 1000 (remark 16 1000) 980 = .late := by decide +kernel
/-- Steps 1 to 7 of the window of one slot. -/
theorem test_window_1 : windowUpdate 64 1000 [950, 990, 998, 1000] 1003 = (1003, [950, 990, 998, 1000, 1003]) := by decide +kernel
theorem test_window_2 :
    windowTest 64 1003 [950, 990, 998, 1000, 1003] 998 = .replay ∧ windowTest 64 1003 [950, 990, 998, 1000, 1003] 939 = .late ∧
    windowTest 64 1003 [950, 990, 998, 1000, 1003] 941 = .fresh := by decide +kernel
theorem test_window_4 : windowUpdate 64 1003 [950, 990, 998, 1000, 1003] 941 = (1003, [941, 950, 990, 998, 1000, 1003]) := by decide +kernel
theorem test_window_5 : windowUpdate 64 1003 [941, 950, 990, 998, 1000, 1003] 1100 = (1100, [1100]) := by decide +kernel
theorem test_window_7 :
    windowUpdate 64 1100 [1050, 1100] 1110 = (1110, [1050, 1100, 1110]) ∧ windowTest 64 1110 [1050, 1100, 1110] 1040 = .late := by decide +kernel

/-! ### The classifier (chapter 3, worked examples) -/

/-- The bank of the example. -/
def bank : Bank :=
  ((((coldBank.set 0 ⟨true, .both, 0xF, .untagged, some 0x9A3C, .bypass⟩).set 1 ⟨true, .out, 0x3, .range 100 199, none, .protect 37⟩).set 2
    ⟨true, .out, 0xF, .range 100 199, some 0x0800, .protect 38⟩).set 3 ⟨true, .inb, 0xF, .untagged, some 0x88CC, .bypass⟩).set 4
    ⟨true, .both, 0xF, .any, none, .discard⟩

/-- The verdict of the example's bank on the inner bytes of a frame. -/
def judged (u : Use) (n : PortId) (inner : List Byte) : Verdict := (beginLookup { idle with active := bank } u n inner).verdict

theorem test_bank_outbound :
    judged .outbound 0 [0x81, 0, 0, 150, 0x08, 0x00] = .protect 37 ∧ judged .outbound 2 [0x81, 0, 0, 150, 0x08, 0x00] = .protect 38 ∧
    judged .outbound 2 [0x81, 0, 0, 150, 0x86, 0xDD] = .discard ∧ judged .outbound 3 [0x9A, 0x3C, 0x40, 0, 0, 0] = .bypass ∧
    judged .outbound 3 [0x08, 0x06, 0] = .discard := by decide +kernel
theorem test_bank_inbound :
    judged .inbound 1 [0x88, 0xCC] = .bypass ∧ judged .inbound 2 [0x81, 0, 0, 150, 0x08, 0x00] = .discard ∧
    (beginLookup { idle with active := bank.set 4 Entry.cleared } .inbound 0 [0x81, 0, 0, 150, 0x08, 0x00]).verdict = .noMatch := by decide +kernel
/-- NO-BYPASS turns frame i and leaves frame d. -/
theorem test_no_bypass :
    (beginLookup { idle with active := bank, store := (Vector.replicate 32 0).set 4 4 } .outbound 3 [0x9A, 0x3C, 0x40, 0, 0, 0]).verdict = .bypass ∧
    (beginLookup { idle with active := bank, store := (Vector.replicate 32 0).set 4 4 } .outbound 0 [0x9A, 0x3C, 0x40, 0, 0, 40]).verdict = .blocked := by
  decide +kernel

/-- Entries 10 to 16 told apart by their channel. -/
def numbered : Bank := Vector.ofFn fun i : Fin 256 => { Entry.cleared with action := .protect ⟨i.val, by omega⟩ }
/-- The channels of entries 10 to 16 of a bank. -/
def rulesAt (b : Bank) : List Action := ((b.toList.drop 10).take 7).map (·.action)

theorem test_move_up :
    rulesAt (moveEntries ⟨10, 12, 5, true⟩ numbered) =
      [.protect 10, .protect 11, .protect 10, .protect 11, .protect 10, .protect 11, .protect 10] := by decide +kernel
theorem test_move_down :
    rulesAt (moveEntries ⟨10, 12, 5, false⟩ numbered) =
      [.protect 10, .protect 11, .protect 10, .protect 11, .protect 12, .protect 13, .protect 14] := by decide +kernel
/-- R54: DOWN to lower entries copies the entries that it has written itself. -/
theorem test_move_down_repeats :
    rulesAt (moveEntries ⟨12, 10, 5, false⟩ numbered) =
      [.protect 16, .protect 15, .protect 16, .protect 15, .protect 16, .protect 15, .protect 16] := by decide +kernel

/-! ### Pause quanta, patterns, the budget, the check word (chapters 7, 9, 10, 11, worked examples) -/

theorem quanta_of (n xon : Nat) :
    pauseQuanta { Port.cold with buffer := [⟨true, List.replicate n 0⟩], xon := xon } = max 1 (ceilDiv (n - xon) 64) := by
  simp [pauseQuanta, bufOccupancy, totalBytes]
theorem test_quanta :
    pauseQuanta { Port.cold with buffer := [⟨true, List.replicate 393300 0⟩], xon := 262144 } = 2050 ∧
    pauseQuanta { Port.cold with buffer := [⟨true, List.replicate 524288 0⟩], xon := 0 } = 8192 ∧
    pauseQuanta { Port.cold with buffer := [⟨true, List.replicate 262150 0⟩], xon := 262144 } = 1 := by
  rw [quanta_of, quanta_of, quanta_of]; decide
/-- The first bytes of a pattern stream from the all-ones history (R150, 12.2). -/
theorem test_pattern : (patternBytes 3 (BitVec.allOnes 23)).1 = [0x00, 0x00, 0x3E] := by decide +kernel
/-- Seven sweeps of sixteen channels fit, the eighth does not. -/
theorem test_budget :
    budgetOk (List.replicate 6 ⟨0x60, .done, List.replicate 1282 0⟩) ⟨0x60, [0, 0, 16, 1]⟩ 1 = true ∧
    budgetOk (List.replicate 7 ⟨0x60, .done, List.replicate 1282 0⟩) ⟨0x60, [0, 0, 16, 1]⟩ 0 = false := by decide +kernel
theorem test_check_word :
    storeSumsToZero (((Vector.replicate 32 0).set 0 0x3A7F).set 31 0xC581) = true ∧
    storeSumsToZero (((Vector.replicate 32 0).set 0 0x3A80).set 31 0xC581) = false := by decide +kernel

/-! ### The arbiter and the checker (chapters 8 and 9, worked examples) -/

/-- Steps 1 to 5 of the rack arbiter. -/
theorem test_arbiter :
    arbiter true #v[.none, .fail, .none, .none] none = some 1 ∧ arbiter true #v[.none, .fail, .none, .fail] (some 1) = some 1 ∧
    arbiter true #v[.none, .fail, .none, .force] (some 1) = some 3 ∧ arbiter true #v[.none, .fail, .none, .fail] (some 3) = some 3 ∧
    arbiter true #v[.none, .fail, .none, .wait] (some 3) = some 1 ∧ arbiter true #v[.none, .none, .none, .none] (some 1) = none := by
  decide +kernel
/-- An inverted bit 64 breaks the relation at bits 64, 82 and 87, and a frame's own bytes keep it (R150 to R152). -/
theorem test_inject :
    payloadGood (patternBytes 48 (BitVec.allOnes 23)).1 = true ∧ payloadGood (invertBit64 (patternBytes 48 (BitVec.allOnes 23)).1) = false := by
  decide +kernel
/-- The notice from a crowded FIFO: SWITCHED and SOFT masked (chapter 10). -/
theorem test_notice_entries :
    takeEntries (kindBit .switched ||| kindBit .soft) 2
      [(37, kindBit .soft), (40, kindBit .missed ||| kindBit .switched), (0, kindBit .first), (41, kindBit .authfail)] =
      ([(40, kindBit .missed), (0, kindBit .first)], [(37, kindBit .soft), (40, kindBit .switched), (41, kindBit .authfail)]) := by decide +kernel

/-! ### States for one step -/

/-- Channel 2 OPEN with outbound A LIVE (next 300) and inbound A CURRENT (top 10, marked), one key on both, and one rule that protects on it. -/
def keyed : State :=
  { idle.updChan 2 (fun ch => { ch with
      isOpen := true
      outA := { OutSlot.cold with state := .live, salt := 7, epoch := some 4, next := .seq 300, load := 1 }
      inA := { InSlot.cold with state := .current, salt := 7, epoch := some 4, load := 1, top := 10, marks := [10] } }) with
    active := coldBank.set 0 ⟨true, .both, 0xF, .any, none, .protect 2⟩ }

/-- The work record of a frame under outbound or inbound A of channel 2. -/
def work (o : Origin) (op : CipherOp) (n : Seq) : Work := { origin := o, op, chan := 2, letter := .a, load := 1, seq := n, key := 0, salt := 7 }

/-- A frame of the peer on channel 2. -/
def peer (n : Seq) : Frame := sealText 0 7 9 8 ⟨0x40, 4, 0x8002, n⟩ [0x08, 0x00, 5]

/-- A port with one frame in its line. -/
def lined (stage : OutStage) : State := keyed.updPort 1 fun p => { p with outLine := [⟨plain 64, stage⟩] }

/-- Lane 1 with frames in its inbound order. -/
def inLane (line : List InItem) : State := keyed.updLane 1 fun l => { l with inLine := line }

/-- Lane 1 with one frame in its inbound order. -/
def inbound (i : InItem) : State := inLane [i]

/-- A key staged, and a 1 ms later time. -/
def staged : State := { keyed with staging := { valid := true, key := 0, salt := 3, epoch := 5 }, time := 1000 }

/-- Channel 2 with its next slot LOADED. -/
def loaded : State :=
  keyed.updChan 2 fun ch => { ch with outB := { OutSlot.cold with state := .loaded, salt := 3, epoch := some 5, next := .seq 1, load := 1 } }

/-- The value of a counter after one command. -/
def portCount (s : State) (c : Instr) (n : PortId) (k : PortCtr) : Nat := (((after s [c]).port n).ctr k).toNat
def laneCount (s : State) (c : Instr) (n : LaneId) (k : LaneCtr) : Nat := (((after s [c]).lane n).ctr k).toNat
def chanCount (s : State) (c : Instr) (k : ChanCtr) : Nat := (((after s [c]).chan 2).ctr k).toNat

/-! ### Start-up, pins, time (R91, R127, R169 to R171, R175) -/

theorem test_power_on : ((after idle [.powerOn ⟨true, true, 2, true⟩]).part = .testing (some true)) ∧
    ((after idle [.powerOn ⟨true, true, 2, true⟩]).lane 1).state = .los := by decide +kernel
theorem test_reset_n_assert : (after keyed [.resetNAssert]).part = .testing none ∧ ((after keyed [.resetNAssert]).chan 2).isOpen = false := by
  decide +kernel
theorem test_reset_n_release : (after (State.cold ⟨false, true, 0, false⟩ ((Vector.replicate 32 0).set 4 8) none 0 []) [.resetNRelease]).part =
    .testing (some true) := by decide +kernel
theorem test_self_check_fails : statusCode (after State.reset [.selfCheckCompletion true false false]) = 3 := by decide +kernel
theorem test_self_check_loads :
    ((after { locked with part := .testing (some false) } [.selfCheckCompletion true true true]).chan 0).outA.kcv = some 0xDC95C0 := by decide +kernel
theorem test_zeroize_n_assert : ((after keyed [.zeroizeNAssert]).chan 2).outA = { OutSlot.cold with load := 1 } ∧
    ((after keyed [.zeroizeNAssert]).chan 2).isOpen = true := by decide +kernel
theorem test_zeroize_n_release :
    ((after { locked with pins := { locked.pins with zeroizeHigh := false } } [.zeroizeNRelease]).chan 0).outA.state = .live := by decide +kernel
theorem test_los_assert : ((after idle [.losAssert 3]).lane 3).state = .los ∧ (after idle [.losAssert 3]).prot.selection = none := by decide +kernel
theorem test_los_release : ((after (after idle [.losAssert 3]) [.losRelease 3]).lane 3).continuity = some ⟨0, 350 * 10⟩ := by decide +kernel
theorem test_time_wraps : (after { idle with time := BitVec.allOnes 64 } [.timeCounterCount]).time = 0 := by decide +kernel

/-! ### The outbound path (R58 to R71) -/

theorem test_arrival_sizes : portCount idle (.innerFrameArrival 1 (withFcs (List.replicate 56 1)) false) 1 .undersize = 1 ∧
    portCount idle (.innerFrameArrival 1 spoiled false) 1 .badFcs = 1 := by decide +kernel
theorem test_arrival_pause : ((after idle [.innerFrameArrival 1 (control 1 300) false]).port 1).hold = some ⟨0, 1⟩ := by decide +kernel
theorem test_lookup_end : (after (lined (.lookup ⟨some 0, .protect 2, 0⟩)) [.outboundLookupEnd 1]).hits[0] = 1 ∧
    ((after (lined (.lookup ⟨some 0, .protect 2, 0⟩)) [.outboundLookupEnd 1]).port 1).outLine =
      [⟨plain 64, .protecting (work (.port 1) .protect 300) ⟨0x40, 4, 2, 300⟩⟩] := by decide +kernel
/-- SOFT comes once in a load (R64, R95): the limit met twice sets it the first time alone. -/
theorem test_soft_once :
    let s := keyed.updChan 2 fun ch => { ch with config := { ch.config with softLimit := 300 } }
    let t := (assignSequence 2 (.port 1) s).2
    let again := t.updChan 2 fun ch => { ch with config := { ch.config with softLimit := 301 } }
    t.agent.fifo = [(2, kindBit .soft)] ∧ (t.chan 2).outA.softHit = true ∧
    (assignSequence 2 (.port 1) { again with agent := Agent.cold }).2.agent.fifo = [] := by decide +kernel
theorem test_protect_length :
    (((after (lined (.protecting (work (.port 1) .protect 300) ⟨0x40, 4, 2, 300⟩)) [.protectCompletion (.port 1) 0]).port 1).outLine.map fun x =>
      match x.stage with
      | .passed _ e => e.length
      | _ => 0) = [64 + 28] := by decide +kernel
theorem test_protect_zeroized :
    chanCount { lined (.protecting { work (.port 1) .protect 300 with load := 0 } ⟨0x40, 4, 2, 300⟩) with pending := [] }
      (.protectCompletion (.port 1) 0) .droppedZeroized = 1 := by decide +kernel
theorem test_buffer_entry : chanCount (lined (.passed 2 (plain 92))) (.outboundBufferEntry 1) .protectedOctets = 64 ∧
    portCount (lined .bypass) (.outboundBufferEntry 1) 1 .bypassed = 1 := by decide +kernel

/-! ### The inbound path (R47, R48, R72 to R87) -/

theorem test_lane_arrival : laneCount idle (.laneFrameArrival 1 (plain 60) false) 1 .undersize = 1 ∧
    laneCount idle (.laneFrameArrival 4 (plain 64) false) 4 .unselected = 1 := by decide +kernel
theorem test_lane_replay : chanCount keyed (.laneFrameArrival 1 (peer 10) false) .replay = 1 ∧
    ((after keyed [.laneFrameArrival 1 (peer 11) false]).chan 2).inA.inFlight = 1 := by decide +kernel
theorem test_inbound_lookup : laneCount (inbound (.lookup (plain 64) 1 ⟨none, .noMatch, 0⟩)) (.inboundLookupEnd 1) 1 .noMatch = 1 := by decide +kernel
theorem test_verify_accepts : ((after (inbound (.verifying (work (.lane 1) .verify 12) (peer 12) false (some 1))) [.verifyCompletion (.lane 1) 0]).chan
    2).inA.marks = [10, 12] := by decide +kernel
theorem test_verify_fails : chanCount (inbound (.verifying (work (.lane 1) .verify 12) (peer 13) false (some 1))) (.verifyCompletion (.lane 1) 0)
    .authFail = 0 ∧ chanCount (inbound (.verifying { work (.lane 1) .verify 12 with salt := 8 } (peer 12) false (some 1)))
    (.verifyCompletion (.lane 1) 0) .authFail = 1 := by decide +kernel
theorem test_return_check : chanCount (inbound (.checking (plain 64) 1 2 30 false ⟨some 0, .protect 3, 0⟩)) (.returnCheck 1 0) .returnMismatch = 1 := by
  decide +kernel
/-- Three frames of lane 1: one in verification, one whose verification completed before it and that awaits its return check, and a clear frame. -/
def unchecked : List InItem :=
  [.verifying (work (.lane 1) .verify 12) (peer 12) false (some 1), .recovered (plain 64) 1 2 30 false, .clear (plain 64) 1]
/-- The banks, by the count of commits, that the lookups of a line began on. -/
def banks (line : List InItem) : List (Option Nat) := line.map lookupGen
/-- A frame in verification holds back the lookups behind it, so that a commit before its completion takes them all to the new bank; once it is dropped
or resolved they begin (R44). -/
theorem test_lookups_in_order :
    banks (beginLookups idle unchecked) = [none, none, none] ∧ banks (beginLookups idle (unchecked.drop 1)) = [some 0, some 0] ∧
    banks (beginLookups { idle with bankGen := 1 } (.checking (plain 64) 1 2 30 false ⟨none, .protect 2, 0⟩ :: unchecked.drop 1)) =
      [some 0, some 1, some 1] := by decide +kernel
/-- A verification that fails releases the lookups behind it (R44, R83). -/
theorem test_lookups_released :
    ((after (inLane (.verifying { work (.lane 1) .verify 12 with salt := 8 } (peer 12) false (some 1) :: unchecked.drop 1))
      [.verifyCompletion (.lane 1) 0]).lane 1).inLine.map underLookup = [true, true] := by decide +kernel
/-- The results are taken in order: neither a later return check nor a clear-frame lookup ends before the oldest (R44). -/
theorem test_results_in_order :
    let s := inLane (List.replicate 2 (.checking (plain 64) 1 2 30 false ⟨none, .protect 2, 0⟩) ++ [.lookup (plain 64) 1 ⟨none, .bypass, 0⟩])
    (banks ((after s [.returnCheck 1 1]).lane 1).inLine) = [some 0, some 0, some 0] ∧
    (banks ((after s [.inboundLookupEnd 1]).lane 1).inLine) = [some 0, some 0, some 0] ∧
    (banks ((after s [.returnCheck 1 0]).lane 1).inLine) = [none, some 0, some 0] := by decide +kernel
theorem test_hand_on : ((after (inbound (.ready (.traffic (plain 64) 1 2 30 false))) [.inboundHandOn (.lane 1)]).port 1).queue = [⟨plain 64, false⟩] ∧
    chanCount (inbound (.ready (.traffic (plain 64) 1 2 30 false))) (.inboundHandOn (.lane 1)) .verifiedOctets = 30 := by decide +kernel

/-! ### Lanes, ports and timers (chapters 6 to 9) -/

/-- Channel 1 LIVE, so that a lane unit gets a sequence. -/
def linked : State :=
  { idle.updChan 1 (fun ch => { ch with outA := { OutSlot.cold with state := .live, epoch := some 0, next := .seq 1, load := 1 } }) with time := 5000 }

theorem test_continuity : ((after ((idle.updLane 2 fun l => { l with state := .up, continuity := some ⟨0, 0⟩ })) [.continuityTimerExpiry 2]).lane 2).state =
    .dark := by decide +kernel
theorem test_beacon_timer :
    ((after (linked.updLane 2 fun l => { l with beaconTimer := some ⟨0, 1000⟩ }) [.beaconTimerExpiry 2]).lane 2).unitLine.length = 1 := by decide +kernel
theorem test_rate_timer : laneCount (idle.updLane 2 fun l => { l with genOn := true, rateTimer := some ⟨0, 0⟩ }) (.rateTimerExpiry 2) 2 .testWithheld = 1 := by
  decide +kernel
/-- A beacon that names another lane is counted as ignored in CIPHER loopback too (R126, R178). -/
theorem test_beacon_ignored :
    let s := fun lane : Byte => (idle.updLane 1 fun l => { l with
      loopMode := .cipher, inLine := [.ready (.beacon ([1, lane, 0, 0, 0xFF, 0xFF, 0, 0] ++ List.replicate 12 0) true 36 false)] })
    laneCount (s 2) (.inboundHandOn (.lane 1)) 1 .beaconsIgnored = 1 ∧ laneCount (s 1) (.inboundHandOn (.lane 1)) 1 .beaconsIgnored = 0 := by decide +kernel
theorem test_control_offer : ((after (idle.updLane 2 fun l => { l with unitLine := [.passed .beacon [1]], control := [⟨.beacon, [2]⟩] })
    [.controlQueueOffer 2]).lane 2).control = [⟨.beacon, [1]⟩] := by decide +kernel
theorem test_transmit_priority : ((after (idle.updLane 2 fun l => { l with control := [⟨.test, [2]⟩, ⟨.notice, [3]⟩] })
    [.laneTransmitStart 2]).lane 2).tx = some ⟨[3], .control .notice⟩ := by decide +kernel
theorem test_transmit_end : ((after (idle.updLane 2 fun l => { l with tx := some ⟨[3], .control .notice⟩ }) [.laneTransmitEnd 2]).lane 2).tx = none := by
  decide +kernel
theorem test_pause_off : portCount (idle.updPort 2 fun p => { p with pendingPause := .off }) (.portTransmitPause 2) 2 .releaseSent = 1 := by decide +kernel
theorem test_queue_frame : portCount (idle.updPort 2 fun p => { p with queue := [⟨plain 64, false⟩] }) (.portTransmitQueueFrame 2) 2 .sentOctets = 64 := by
  decide +kernel
theorem test_port_end : ((after (idle.updPort 2 fun p => { p with tx := some ⟨[1], false⟩ }) [.portTransmitEnd 2]).port 2).tx = none := by decide +kernel
theorem test_refresh : ((after (idle.updPort 2 fun p => { p with refresh := some ⟨0, 0⟩, inForce := true }) [.pauseRefreshExpiry 2]).port 2).pendingPause =
    .on := by decide +kernel
theorem test_hold : ((after (idle.updPort 2 fun p => { p with hold := some ⟨0, 0⟩ }) [.pauseHoldExpiry 2]).port 2).hold = none := by decide +kernel
theorem test_grace : ((after (keyed.updChan 2 fun ch => { ch with inB := { ch.inA with state := .fading, graceTimer := some ⟨0, 0⟩ } })
    [.graceExpiry 2 .b]).chan 2).inB.state = .empty := by decide +kernel
theorem test_schedule : ((after (loaded.updChan 2 fun ch => { ch with schedule := some 0 }) [.scheduleDue 2]).chan 2).outB.state = .live := by decide +kernel
/-- Lane 1 selected, its WTR timer run out. -/
def waiting : Protection := { Protection.cold with selection := some 1, classes := #v[.none, .wait, .none, .none], wtrTimer := some ⟨0, 0⟩ }
theorem test_wtr : (after { idle with prot := waiting } [.wtrExpiry]).prot.wtrTimer = none := by decide +kernel
theorem test_holdoff : (after { idle with agent := { Agent.cold with holdoff := some ⟨0, 0⟩ } } [.holdoffExpiry]).agent.holdoff = none := by decide +kernel

/-! ### The agent (chapter 10) -/

/-- A request in hand with one TIME-READ left. -/
def asked : State := { idle with agent := { Agent.cold with run := some ⟨7, .lane 1, 6, [⟨0x23, []⟩], []⟩ } }

theorem test_request_queued : (after idle [.innerFrameArrival 1 (clearTo idle 0 askTime) false]).agent.queue = [⟨7, .port 1, 6, true, [⟨0x23, []⟩]⟩] := by
  decide +kernel
theorem test_runner_runs : ((after asked [.runnerTakeRequest 1]).agent.hand.map (·.kind)) = some (.reply false) := by decide +kernel
/-- Two TIME-READs of one request: the second waits until the counter has gone on (R92). -/
def askedTwice : State := { idle with agent := { Agent.cold with run := some ⟨7, .lane 1, 6, [⟨0x23, []⟩, ⟨0x23, []⟩], []⟩ } }
theorem test_time_read_increases :
    ((after askedTwice [.runnerTakeRequest 2]).agent.run.map fun r => (r.rest.length, r.records.map (·.data))) = some (1, [beBytes 8 0]) ∧
    (after askedTwice [.runnerTakeRequest 2, .timeCounterCount, .runnerTakeRequest 1]).agent.run = none := by decide +kernel
/-- The channels of a lost notice rejoin in the order of its entries (log 36). -/
theorem test_notice_lost :
    (loseNotice 0 [(37, kindBit .soft), (2, kindBit .first)] { idle with agent := { Agent.cold with fifo := [(5, kindBit .missed)] } }).agent.fifo =
      [(5, kindBit .missed), (37, kindBit .soft), (2, kindBit .first)] := by decide +kernel
theorem test_sender : ((after { idle with agent := { Agent.cold with hand := some ⟨.lane 1, .reply false, .ready [1, 2] none⟩ } } [.senderSend]).lane
    1).control = [⟨.reply false, [1, 2]⟩] := by decide +kernel
theorem test_restart_timeout : (after { idle with time := 1000000, agent := { Agent.cold with restart := some ⟨0, 1000000⟩ } } [.restartTimeout]).part =
    .testing (some false) := by decide +kernel

/-! ### Directives (12.4) -/

theorem test_chan_open : record idle [.chanOpen [0, 2, 1, 4, 1]] = some (.done, [4, 0, 0x80, 0, 0, 0, 0, 0, 1, 0x07, 0xD0, 0]) ∧
    record idle [.chanOpen [0, 1]] = some (.range, []) := by decide +kernel
theorem test_chan_set : record keyed [.chanSet [0, 2, 3, 2]] = some (.range, []) ∧
    ((after keyed [.chanSet [0, 2, 1, 0, 4]]).chan 2).inA.marks = [7, 8, 9, 10] := by decide +kernel
theorem test_chan_close : ((after keyed [.chanClose [0, 2]]).chan 2).inA.state = .empty ∧ record keyed [.chanClose [0, 0]] = some (.range, []) := by
  decide +kernel
theorem test_chan_read : (record keyed [.chanRead [0, 2]]).map (fun r => r.2.length) = some 219 := by decide +kernel
theorem test_key_stage : (after keyed [.keyStage (List.replicate 36 1 ++ [9])]).staging.epoch = 9 ∧ record keyed [.keyStage [1]] = some (.format, []) := by
  decide +kernel
theorem test_key_commit : record staged [.keyCommit [0, 2, 0, 1]] = some (.done, [0xDC, 0x95, 0xC0]) ∧
    record staged [.keyCommit [0, 2, 2, 0]] = some (.state, []) := by decide +kernel
theorem test_key_erase : record keyed [.keyErase [0, 2, 0, 0]] = some (.state, []) ∧
    ((after loaded [.keyErase [0, 2, 0, 1]]).chan 2).outB.state = .empty := by decide +kernel
theorem test_switch_now : record loaded [.switchNow [0, 2]] = some (.done, [1, 5, 0, 0, 0, 0, 0, 0, 0, 0]) ∧
    record keyed [.switchNow [0, 2]] = some (.state, []) := by decide +kernel
theorem test_switch_at : record loaded [.switchAt [0, 2, 0, 0, 0, 0, 0, 0, 0, 9]] = some (.done, [0, 0, 0, 0, 0, 0, 0, 9, 0]) ∧
    record loaded [.switchAt [0, 2, 0, 0, 0, 0, 0, 0, 0, 0]] = some (.done, [0, 0, 0, 0, 0, 0, 0, 0, 1]) := by decide +kernel
theorem test_switch_cancel : record (loaded.updChan 2 fun ch => { ch with schedule := some 9 }) [.switchCancel [0, 2]] =
    some (.done, [0, 0, 0, 0, 0, 0, 0, 9]) := by decide +kernel
theorem test_time_read : record staged [.timeRead []] = some (.done, [0, 0, 0, 0, 0, 0, 0x03, 0xE8]) := by decide +kernel
theorem test_rule_write : record idle [.ruleWrite [0, 3, 7, 2, 6, 1, 8, 6]] = some (.done, [0, 3, 1, 2, 15, 1, 0, 0, 0, 0, 1, 8, 6, 2, 0, 0]) ∧
    record idle [.ruleWrite [0, 3, 7, 0]] = some (.format, []) := by decide +kernel
theorem test_rule_patch : (after { idle with shadow := bank } [.rulePatch [0, 1, 1, 0]]).shadow[1] = { bank[1] with valid := false } := by decide +kernel
theorem test_rule_clear : (after { idle with shadow := bank } [.ruleClear [0, 4, 0, 252]]).shadow[4] = Entry.cleared ∧
    record idle [.ruleClear [0, 4, 0, 253]] = some (.range, []) := by decide +kernel
theorem test_rule_read : record { idle with active := bank } [.ruleRead [0, 0, 0]] =
    some (.done, [0, 0, 0, 1, 2, 15, 0, 0, 0, 0, 0, 1, 0x9A, 0x3C, 1, 0, 0, 0, 0, 0, 0, 0, 0]) := by decide +kernel
theorem test_rule_move : (after idle [.ruleMove [0, 10, 0, 12, 0, 5, 0]]).move = some ⟨10, 12, 5, true⟩ := by decide +kernel
theorem test_rule_move_ends : record { idle with move := some ⟨10, 12, 5, true⟩ } [.ruleMoveCompletion] = some (.done, []) := by decide +kernel
theorem test_table_commit : record { idle with shadow := bank } [.tableCommit []] = some (.done, [0, 5]) := by decide +kernel
theorem test_table_revert : (after { idle with active := bank } [.tableRevert []]).shadow[2] = bank[2] := by decide +kernel
theorem test_port_set : record idle [.portSet [1, 1, 0, 0, 0, 1, 2, 0, 1, 0, 0]] = some (.done, [1, 0, 0, 0x24, 0x1C, 0, 0, 0x24, 0x1B, 1]) := by
  decide +kernel
theorem test_lane_set : record idle [.laneSet [1, 0, 0, 4, 2]] = some (.done, [0, 1, 0, 60, 0, 2, 0xFF, 0xFF]) ∧
    record { idle with role := .campus } [.laneSet [3, 1]] = some (.state, []) := by decide +kernel
theorem test_loop_set : ((after idle [.loopSet [1, 1, 1]]).lane 1).loopMode = .cipher ∧ record idle [.loopSet [1, 1, 2]] = some (.range, []) := by
  decide +kernel
theorem test_test_set : record idle [.testSet [1, 1, 2, 0, 1]] = some (.done, [1, 1, 0, 0, 0x03, 0xE8, 0, 64]) := by decide +kernel
theorem test_test_inject : record idle [.testInject [1, 0]] = some (.state, []) := by decide +kernel
theorem test_count_sweep : (record idle [.countSweep [3, 0xFF, 2, 1]]).map (fun r => r.2.take 2 ++ (r.2.drop 80).take 2 ++ r.2.drop 160) =
    some [3, 0xFF, 0, 0, 0, 1] := by decide +kernel
theorem test_port_counts : (record idle [.portCounts [9, 2, 0]]).map (fun r => (r.2.length, r.2.head?, r.2.getLast?)) =
    some (56 + 143 + 1, some 9, some 1) := by decide +kernel
theorem test_status_read : (record locked [.statusRead []]).map (fun r => (r.2.take 4, r.2.length)) = some ([1, 1, 0, 1], 209) := by decide +kernel
theorem test_notice_mask : record idle [.noticeMask [0x0F, 0xFF]] = some (.done, [0x0F, 0xFF]) ∧ record idle [.noticeMask [0x10, 0]] = some (.range, []) := by
  decide +kernel
theorem test_id_read : (record { idle with store := (Vector.replicate 32 0x1234).set 4 0 } [.idRead []]).map
    (fun r => r.2.take 12 ++ (r.2.drop 44).take 4) = some [0x12, 0x34, 0x12, 0x34, 0x12, 0x34, 0x12, 0x34, 0, 0, 0, 0, 0, 0, 0x12, 0x34] := by decide +kernel
theorem test_id_burn : record idle [.idBurn [4, 4]] = some (.range, []) ∧ record locked [.idBurn [0, 0]] = some (.locked, []) := by decide +kernel
theorem test_id_burn_ends : record { idle with time := 100, burn := some ⟨3, 15, ⟨0, 100⟩⟩ } [.idBurnCompletion] = some (.done, [0x80, 0]) := by
  decide +kernel
/-- A burned key word is reported as zero (R14, R160; 12.6). -/
theorem test_id_burn_key : record { idle with time := 100, burn := some ⟨5, 15, ⟨0, 100⟩⟩ } [.idBurnCompletion] = some (.done, [0, 0]) ∧
    (after { idle with time := 100, burn := some ⟨5, 15, ⟨0, 100⟩⟩ } [.idBurnCompletion]).store[5] = 0x8000 := by decide +kernel
/-- A LOCK burn of a part latched as `was` whose store says ROLE `role`, with port 2 bridged, FORCE on lane 1, and L4 in transmission of buffer 2. -/
def turning (was : Role) (role : BitVec 16) : State :=
  { idle with
    role := was, time := 100, burn := some ⟨4, 0, ⟨0, 100⟩⟩, store := (Vector.replicate 32 0).set 4 role
    lanes := idle.lanes.set 4 { idle.lane 4 with state := .up, tx := some ⟨plain 64, .buffer 2 true⟩ }
    prot := { Protection.cold with
      selection := if was = .rack then some 2 else none, echo := if was = .rack then none else some 2, steering := some 2, force := some 1 } }
/-- What R174 names at a change of the role: selection, steering, echo, the cut, its count, PROTECT. -/
def turned (s : State) : Role × Option PortId × Option PortId × Option PortId × Bool × Nat × Bool :=
  let t := after s [.idBurnCompletion]
  (t.role, t.prot.selection, t.prot.steering, t.prot.echo, (t.lane 4).tx.isSome, ((t.lane 4).ctr .lostOnSwitch).toNat, t.agent.devices.getLsbD 1)
theorem test_lock_burn_to_campus : turned (turning .rack 2) = (.campus, none, none, none, false, 1, true) := by decide +kernel
theorem test_lock_burn_to_rack : turned (turning .campus 0) = (.rack, some 1, none, none, false, 1, true) := by decide +kernel
theorem test_lock_burn_role_stands : turned (turning .rack 0) = (.rack, some 2, some 2, none, true, 0, false) := by decide +kernel
theorem test_zeroize : ((after keyed [.zeroize []]).chan 2).outA.state = .empty ∧ record keyed [.zeroize [0]] = some (.format, []) := by decide +kernel
theorem test_restart : (after idle [.restart []]).agent.restart = some ⟨0, 1000000⟩ := by decide +kernel
/-- No directive follows a RESTART: a second one does not start the second anew (R169). -/
theorem test_restart_once : (after (after idle [.restart []]) [.timeCounterCount, .restart []]).agent.restart = some ⟨0, 1000000⟩ := by decide +kernel

/-! ### Witnesses: the hypotheses of each statement can be met, each clause at its boundary -/

/-- A check of `RolloverOk`. -/
def rollCheck (ch : Channel) : Bool :=
  !((ch.outA.state == .live || ch.outA.state == .exhausted) && (ch.outB.state == .live || ch.outB.state == .exhausted)) &&
  !(ch.inA.state == .current && ch.inB.state == .current) && (ch.inA.state != .fading || ch.inB.state == .current) &&
  (ch.inB.state != .fading || ch.inA.state == .current) && (ch.inA.state == .empty || ch.inB.state == .empty || ch.inA.epoch != ch.inB.epoch)

theorem rollCheck_ok {ch : Channel} (h : rollCheck ch = true) : RolloverOk ch := by
  simp only [rollCheck, Bool.and_eq_true, Bool.not_eq_true', Bool.or_eq_true, beq_iff_eq, bne_iff_ne, Bool.and_eq_false_iff, Bool.or_eq_false_iff,
    beq_eq_false_iff_ne] at h
  refine ⟨?_, ?_, ?_, ?_⟩
  · simp only [inService]; tauto
  · tauto
  · intro x; cases x <;> simp only [Channel.inSlot, Letter.other] <;> tauto
  · tauto

/-- A directive can run outside a request, and as the next one of a request. -/
theorem ready_idle (code : Byte) (ops : List Byte) : Ready code ops idle := ⟨by decide +kernel, by decide +kernel, rfl, by decide +kernel, Or.inl rfl⟩
theorem ready_states (code : Byte) (ops : List Byte) : Ready code ops keyed ∧ Ready code ops loaded ∧ Ready code ops staged ∧ Ready code ops locked :=
  ⟨⟨by decide +kernel, by decide +kernel, rfl, by decide +kernel, Or.inl rfl⟩, ⟨by decide +kernel, by decide +kernel, rfl, by decide +kernel, Or.inl rfl⟩,
   ⟨by decide +kernel, by decide +kernel, rfl, by decide +kernel, Or.inl rfl⟩, ⟨by decide +kernel, by decide +kernel, rfl, by decide +kernel, Or.inl rfl⟩⟩
theorem ready_asked : Ready codeTimeRead [] asked := ⟨by decide +kernel, by decide +kernel, rfl, by decide +kernel, Or.inr ⟨_, [], rfl, rfl, by decide +kernel⟩⟩

/-- A part held in reset, and one whose locked store does not sum to 0. -/
def held : State := State.cold ⟨false, false, 0, false⟩ (Vector.replicate 32 0) none 0 []
def badStore : State := { State.reset with store := (Vector.replicate 32 0).set 4 1 }

theorem witness_StepRunsFrontCommand : ({ idle with pending := [.timeCounterCount] } : State).pending = .timeCounterCount :: [] := rfl
theorem witness_ColdReset : idle.pins.resetHigh = true ∧
    timerDue ({ idle with time := 1000000 } : State).time (some ⟨0, 1000000⟩) = true := by decide +kernel
theorem witness_SelfCheck : held.pins.resetHigh = false ∧ held.part = .testing none ∧ badStore.part = .testing (some false) ∧
    badStore.store[4].getLsbD 0 = true ∧ (badStore.store.toList.foldl (fun a w => a + w.toNat) 0) % 65536 ≠ 0 := by decide +kernel
theorem witness_SelfCheck_passes : State.reset.part = .testing (some false) ∧ State.reset.store[4].getLsbD 0 = false ∧
    locked.store[4].getLsbD 0 = true ∧ (locked.store.toList.foldl (fun a w => a + w.toNat) 0) % 65536 = 0 ∧ locked.pins.zeroizeHigh = true := by
  decide +kernel
/-- The rows of the STATUS table (R169), and FAULT_N. -/
theorem witness_SelfCheck_status : State.reset.part = .testing (some false) ∧ locked.part = .running ∧ idle.part = .unprovisioned ∧
    held.pins.zeroizeHigh = false ∧ statusCode State.reset = 0 ∧ statusCode locked = 1 ∧ statusCode idle = 7 ∧
    statusCode (after idle [.zeroizeNAssert]) = 6 ∧ statusCode (after locked [.zeroizeNAssert]) = 6 ∧
    faultN (after State.reset [.selfCheckCompletion true true false]) = false ∧ statusCode (after State.reset [.selfCheckCompletion true true false]) = 4 := by
  decide +kernel
/-- Only the timers of a lane move when the check passes: with the generator off the rate timer stands (R171). -/
theorem test_self_check_lanes : (after State.reset [.selfCheckCompletion true true true]).lane 3 =
    { Lane.cold false with beaconTimer := some ⟨0, 1000⟩ } := by decide +kernel
theorem witness_ZeroizePin : idle.pins.zeroizeHigh = true ∧ held.pins.zeroizeHigh = false ∧ blocked held = true ∧ blocked locked = false := by
  decide +kernel
theorem witness_LosPinAndTime : idle.pins.los.getLsbD 4 = false ∧ (coldLanes 0x11)[(4 : Fin 5)].state = .los ∧ (0x11 : BitVec 5).getLsbD 4 = true ∧
    (coldLanes 0x11)[(0 : Fin 5)].state = .los ∧ held.pins.resetHigh = false := by decide +kernel
/-- A RACK part with every lane UP loses L0: the arbiter selects it, LANE and PROTECT are set; it loses L4 while that is selected and steered. -/
theorem test_los_moves :
    (let t := after { idle with lanes := Vector.replicate 5 { Lane.cold false with state := .up } } [.losAssert 0]
     t.prot.selection = some 0 ∧ t.prot.classes[0] = .fail ∧ t.agent.devices = 3) ∧
    (let t := after { idle with
        lanes := (Vector.replicate 5 { Lane.cold false with state := .up }).set 0 (Lane.cold false)
        prot := { Protection.cold with selection := some 0, steering := some 0 } } [.losAssert 4]
     t.prot.selection = none ∧ t.prot.steering = none ∧ t.agent.devices = 3) := by decide +kernel

/-- A management frame of channel `c` to the part, its version bits from the control byte. -/
def toPart (control : Byte) (field : BitVec 16) : Frame :=
  withFcs (addrBytes idle.ownAddr 8 ++ headerBytes ⟨control, 0, field, 1⟩ ++ List.replicate 40 0)

theorem witness_InnerFrameSorted_sizes : blocked idle = false ∧ fcsGood spoiled = false ∧ (withFcs (List.replicate 59 1)).length = 63 ∧
    (withFcs (List.replicate 9213 1)).length = 9217 ∧ fcsGood (withFcs (List.replicate 59 1)) = true ∧
    fcsGood (withFcs (List.replicate 9213 1)) = true := by
  refine ⟨by decide +kernel, by decide +kernel, ?_, ?_, fcsGood_withFcs _, fcsGood_withFcs _⟩ <;> rw [withFcs_length, List.length_replicate]
theorem witness_InnerFrameSorted_kinds : isMacControl (control 2 0) = true ∧ word16 (innerBytes (control 2 0)) 2 ≠ 1 ∧
    word16 (innerBytes (control 1 0)) 2 = 1 ∧ word16 (innerBytes (control 1 0)) 4 = 0 ∧ word16 (innerBytes (control 1 65535)) 4 ≠ 0 ∧
    (control 1 0).length = 64 ∧ frameDa (toPart 0x80 0) = idle.ownAddr ∧ hasMarker (toPart 0x80 0) = true ∧ malformed (toPart 0x80 0) = true ∧
    64 ≤ (toPart 0x80 0).length := by decide +kernel
theorem witness_InnerFrameRouted : isMacControl (plain 64) = false ∧ frameDa (plain 64) ≠ idle.ownAddr ∧ (plain 64).length = 64 ∧
    (plain 9216).length = 9216 ∧ fcsGood (plain 9216) = true ∧ malformed (toPart 0x40 5) = false ∧ headerChan (headerOf (toPart 0x40 5)) ≠ 0 := by
  refine ⟨by decide +kernel, by decide +kernel, ?_, ?_, fcsGood_withFcs _, by decide +kernel, by decide +kernel⟩ <;>
    rw [plain, withFcs_length, List.length_append, List.length_replicate] <;> rfl
/-- A protected request to the part, a CLEAR one and a malformed message, and a full request queue. -/
theorem witness_InnerFrameRouted_requests : headerClear (headerOf (toPart 0x40 0)) = false ∧ headerOrigin (headerOf (toPart 0x40 0)) = false ∧
    headerChan (headerOf (toPart 0x40 0)) = 0 ∧ malformed (toPart 0x40 0) = false ∧ 8 ≤ (List.replicate 8 askTime).length ∧
    frameDa (clearTo idle 0 askTime) = idle.ownAddr ∧ malformed (clearTo idle 0 askTime) = false ∧
    (clearTo idle 0 askTime).length = 64 ∧ headerChan (headerOf (clearTo idle 0 askTime)) = 0 ∧ headerClear (headerOf (clearTo idle 0 askTime)) = true ∧
    headerOrigin (headerOf (clearTo idle 0 askTime)) = false ∧ headerOrigin (headerOf (clearTo idle 0x8000 askTime)) = true ∧ lockBit locked = true ∧
    lockBit idle = false ∧ parseRequest (clearPart (clearTo idle 0 askTime)) = some (7, [⟨0x23, []⟩]) ∧
    parseRequest (clearPart (clearTo idle 0 [])) = none := by decide +kernel
/-- The places of the directives of a message. -/
def places (msg : List Byte) : Nat → Nat
  | 0 => 3
  | j + 1 => places msg j + 3 + numAt msg (places msg j + 1) 2
theorem witness_InnerFrameRouted_message : places askTime 0 = 3 ∧
    (∀ j, places askTime (j + 1) = places askTime j + 3 + numAt askTime (places askTime j + 1) 2) ∧ places askTime 1 = askTime.length :=
  ⟨rfl, fun _ => rfl, by decide⟩
/-- Each malformed case of R157 at its bound, and what is no such case. -/
theorem test_request_framing : parseRequest [0, 7] = none ∧ parseRequest [0, 7, 0] = none ∧ parseRequest [0, 7, 1, 0x23, 0] = none ∧
    parseRequest [0, 7, 1, 0x23, 0, 1] = none ∧ parseRequest [0, 7, 1, 0x23, 0, 0, 0, 1] = none ∧
    parseRequest [0, 7, 1, 0x23, 0, 0, 0, 0] = some (7, [⟨0x23, []⟩]) ∧ parseRequest ([0, 7, 33] ++ List.replicate 99 0) = none ∧
    (parseRequest ([0, 7, 32] ++ List.replicate 96 0)).map (·.2.length) = some 32 := by decide +kernel

/-- Inner bytes with a tag and without, at the ends of a VLAN range (R41, R42). -/
theorem witness_LookupFirstMatchWins : word16 [0x81, 0, 0xE0, 100, 0x08, 0] 0 = 0x8100 ∧
    (100 : BitVec 12).toNat = (word16 [0x81, 0, 0xE0, 100, 0x08, 0] 2).toNat % 4096 ∧ (0x0800 : BitVec 16) = word16 [0x81, 0, 0xE0, 100, 0x08, 0] 4 ∧
    word16 [0x08, 0] 0 ≠ 0x8100 ∧
    (∀ v ∈ ([99, 100, 199, 200] : List (BitVec 8)), entryMatches ⟨true, .out, 0x3, .range 100 199, some 0x0800, .discard⟩ .outbound 1 [0x81, 0, 0, v, 0x08, 0] =
      decide (100 ≤ v.toNat ∧ v.toNat ≤ 199)) := by decide +kernel
theorem witness_SequenceAnswered : RolloverOk (keyed.chan 2) ∧ RolloverOk (loaded.chan 2) ∧ (keyed.chan 5).isOpen = false ∧
    (keyed.chan 2).isOpen = true ∧ ((keyed.chan 2).outSlot .a).state = .live ∧ ((keyed.chan 2).outSlot .a).next = .seq 300 ∧
    (keyed.chan 2).config.softLimit ≠ 300 ∧ ((loaded.chan 2).outSlot .b).state = .loaded ∧ (loaded.chan 2).config.auto = true ∧
    ((loaded.chan 2).outSlot .b).epoch ≠ ((loaded.chan 2).outSlot .a).epoch := by
  refine ⟨rollCheck_ok (by decide +kernel), rollCheck_ok (by decide +kernel), ?_⟩; decide +kernel
/-- The boundary sequences: the soft limit itself and the last of a load. -/
theorem witness_SequenceAnswered_bounds : (300 : Seq).toNat = 300 ∧ (BitVec.ofNat 48 (2 ^ 48 - 1) : Seq).toNat = 2 ^ 48 - 1 := by decide
/-- The soft limit met, before and after the soft-limit event of the load. -/
theorem witness_SequenceAnswered_soft : ∀ hit ∈ [false, true],
    let s := loaded.updChan 2 fun ch => { ch with config := { ch.config with softLimit := 300 }, outA := { ch.outA with softHit := hit } }
    rollCheck (s.chan 2) = true ∧ (300 : Seq).toNat = (s.chan 2).config.softLimit ∧ (s.chan 2).config.auto = true ∧ (s.chan 2).outA.softHit = hit := by
  decide +kernel
/-- A hit on the bank that is ACTIVE, one on an earlier bank, and no hit (R40, R44). -/
theorem witness_HitCounted : HitCounted ⟨some 255, .discard, 0⟩ keyed (countHit ⟨some 255, .discard, 0⟩ keyed) ∧
    HitCounted ⟨some 255, .discard, 1⟩ keyed keyed ∧ HitCounted ⟨none, .noMatch, 0⟩ keyed keyed ∧ keyed.bankGen = 0 := by
  refine ⟨⟨fun i h _ => ?_, fun h => ?_⟩, ⟨fun i _ h => absurd h (by decide), fun _ => rfl⟩, ⟨fun i h => absurd h (by simp), fun _ => rfl⟩, rfl⟩
  · cases h; rfl
  · rcases h with h | h <;> exact absurd h (by decide)
theorem witness_OutboundLookupEnds : ((lined (.lookup ⟨some 0, .protect 2, 0⟩)).port 1).outLine = [] ++ ⟨plain 64, .lookup ⟨some 0, .protect 2, 0⟩⟩ :: [] ∧
    (assignSequence 2 (.port 1) (lined (.lookup ⟨some 0, .protect 2, 0⟩))).1.isRight = true ∧
    (assignSequence 3 (.port 1) (lined (.lookup ⟨some 0, .protect 3, 0⟩))).1.isLeft = true := by decide +kernel
theorem witness_TrafficProtectCompletes :
    ((lined (.protecting (work (.port 1) .protect 300) ⟨0x40, 4, 2, 300⟩)).port 1).outLine[0]? =
      some ⟨plain 64, .protecting (work (.port 1) .protect 300) ⟨0x40, 4, 2, 300⟩⟩ ∧
    ((keyed.chan 2).outSlot .a).load = 1 ∧ ((keyed.chan 2).outSlot .a).state ≠ .empty ∧ ((keyed.chan 2).outSlot .b).state = .empty := by decide +kernel
/-- A slot that drains its last frame, and one with a second frame. -/
theorem witness_TrafficProtectCompletes_draining (n : Nat) (hn : n = 1 ∨ n = 2) :
    ((keyed.updChan 2 fun ch => { ch with outA := { ch.outA with state := .draining, inFlight := n } }).chan 2).outA.inFlight = n ∧
    ((keyed.updChan 2 fun ch => { ch with outA := { ch.outA with state := .draining, inFlight := n } }).chan 2).outA.state = .draining := by
  rcases hn with rfl | rfl <;> simp
theorem witness_OwnProtectCompletes : protectPasses (keyed.chan 2) (work .agent .protect 300) = true ∧
    protectPasses (keyed.chan 2) { work .agent .protect 300 with load := 0 } = false ∧
    ((idle.updLane 1 fun l => { l with unitLine := [.protecting .beacon (work (.unit 1) .protect 300) ⟨0x50, 4, 1, 300⟩ 5 []] }).lane 1).unitLine[0]? =
      some (.protecting .beacon (work (.unit 1) .protect 300) ⟨0x50, 4, 1, 300⟩ 5 []) := by decide +kernel
/-- A frame that fills the buffer to its last byte, and one byte more. -/
theorem witness_BufferEntry (bytes : Frame) (h : bytes.length = 64) :
    bufOccupancy { Port.cold with buffer := [⟨true, List.replicate (524288 - 64) 0⟩] } + bytes.length = 524288 ∧
    bufOccupancy { Port.cold with buffer := [⟨true, List.replicate (524288 - 63) 0⟩] } + bytes.length = 524289 := by
  have (n : Nat) : bufOccupancy { Port.cold with buffer := [⟨true, List.replicate n 0⟩] } = n := by simp [bufOccupancy, totalBytes]
  rw [this, this, h]; exact ⟨rfl, rfl⟩

theorem witness_LaneFrameSorted : boundPort idle 4 = none ∧ hasMarker (plain 64) = false ∧ isMacControl (control 3 0) = true ∧
    hasMarker (control 3 0) = false ∧ hasMarker (enveloped 0x80 37 1 92) = true ∧ malformed (enveloped 0x80 37 1 92) = true ∧
    headerChan (headerOf (enveloped 0x40 37 1 92)) ≠ 1 ∧ 6 ≤ (innerBytes (enveloped 0x40 37 1 92)).length := by decide +kernel
/-- One byte beyond the longest envelope frame; a return queue filled to its last byte, and one byte more. -/
theorem witness_LaneFrameSorted_bounds : (enveloped 0x40 37 1 9245).length = 9245 ∧ fcsGood (enveloped 0x40 37 1 9245) = true ∧
    totalBytes [List.replicate (16384 - 64) 0] + 64 = 16384 ∧ totalBytes [List.replicate (16384 - 63) 0] + 64 = 16385 := by
  have (n : Nat) : totalBytes [List.replicate n 0] = n := by simp [totalBytes]
  refine ⟨?_, fcsGood_withFcs _, by rw [this], by rw [this]⟩
  rw [enveloped, withFcs_length, List.length_append, List.length_replicate]; rfl
/-- A lane in LINE loopback: a channel 1 frame that goes on to slot selection, a malformed one, and one beyond the longest frame. -/
theorem witness_LaneFrameSorted_returned : hasMarker (enveloped 0x50 1 1 92) = true ∧ 6 ≤ (innerBytes (enveloped 0x50 1 1 92)).length ∧
    headerChan (headerOf (enveloped 0x50 1 1 92)) = 1 ∧ malformed (enveloped 0x50 1 1 92) = false ∧ malformed (enveloped 0x58 1 1 92) = true ∧
    headerChan (headerOf (enveloped 0x58 1 1 92)) = 1 ∧ (enveloped 0x50 1 1 92).length ≤ 9244 ∧
    ((idle.updLane 1 fun l => { l with loopMode := .line }).lane 1).loopMode = .line := by decide +kernel
theorem witness_LaneFrameRouted_requests : hasMarker (clearTo idle 0 askTime) = true ∧ (clearTo idle 0 askTime).length ≤ 9244 ∧
    malformed (clearTo idle 0x8000 askTime) = false ∧ headerChan (headerOf (clearTo idle 0x8000 askTime)) = 0 ∧
    headerOrigin (headerOf (clearTo idle 0x8000 askTime)) = true ∧ frameDa (clearTo idle 0x8000 askTime) = idle.ownAddr ∧
    headerClear (headerOf (clearTo idle 0 askTime)) = true ∧ idle.ownAddr = locked.ownAddr := by decide +kernel
theorem witness_LaneFrameRouted : idle.prot.steering ≠ some 1 ∧ boundPort idle 1 = some 1 ∧
    boundPort { idle with prot := { Protection.cold with steering := some 1 } } 4 = some 1 ∧
    boundPort { idle with prot := { Protection.cold with steering := some 1 } } 1 = none ∧ malformed (enveloped 0x40 0x8025 1 92) = false ∧
    headerOrigin (headerOf (enveloped 0x40 0x8025 1 92)) = true ∧ headerOrigin (headerOf (enveloped 0x40 0x0025 1 92)) = false ∧
    malformed (enveloped 0x40 0x8000 1 64) = false ∧ malformed (enveloped 0x40 0 1 64) = false ∧ malformed (enveloped 0x50 1 1 92) = false ∧
    frameDa (enveloped 0x40 0 1 64) ≠ idle.ownAddr ∧ frameDa (toPart 0x40 0) = idle.ownAddr ∧ malformed (toPart 0x40 0) = false := by decide +kernel
theorem witness_SlotSelection : RolloverOk (keyed.chan 2) ∧ ((keyed.chan 2).inSlot .a).state ≠ .empty ∧
    ((keyed.chan 2).inSlot .a).epoch = some (headerOf (peer 11)).epoch ∧ headerChan (headerOf (peer 11)) = 2 ∧
    ((keyed.chan 3).inSlot .a).state = .empty ∧ ((keyed.chan 3).inSlot .b).state = .empty ∧ windowTest 256 10 [10] 11 = .fresh ∧
    windowTest 256 10 [10] 10 = .replay ∧ windowTest 4 10 [10] 6 = .late := by
  refine ⟨rollCheck_ok (by decide +kernel), ?_⟩; decide +kernel
/-- The boundaries of the window test: T + 1, T − W + 1 marked and not, T − W. -/
theorem witness_NoSequenceTwice_window : 1000 < 1001 ∧ 937 ≤ 1000 ∧ 1000 < 937 + 64 ∧ 937 ∈ [937] ∧ 937 ∉ ([] : List Nat) ∧ 936 + 64 ≤ 1000 := by decide
theorem witness_NoSequenceTwice : windowTest 1 1000 [1000] 1001 = .fresh ∧ windowTest 64 1000 [1000] 937 = .fresh := by decide +kernel
/-- The premises of the update clause, and the update at T, T + W − 1, T + W and with W = 0. -/
theorem witness_NoSequenceTwice_update : [7, 10].Pairwise (· < ·) ∧ (∀ m ∈ [7, 10], m ≤ 10 ∧ 10 < m + 4) ∧ windowUpdate 4 10 [7, 10] 13 = (13, [10, 13]) ∧
    windowUpdate 4 10 [7, 10] 14 = (14, [14]) ∧ windowUpdate 4 10 [7, 10] 9 = (10, [7, 9, 10]) ∧ windowUpdate 0 10 [] 9 = (10, []) := by
  decide +kernel
theorem witness_InboundLookupsEnd : ((inbound (.lookup (plain 64) 1 ⟨none, .bypass, 0⟩)).lane 1).inLine = [] ++ .lookup (plain 64) 1 ⟨none, .bypass, 0⟩ :: [] ∧
    ((inbound (.checking (plain 64) 1 2 30 false ⟨none, .protect 2, 0⟩)).lane 1).inLine = [] ++ .checking (plain 64) 1 2 30 false ⟨none, .protect 2, 0⟩ :: [] ∧
    unchecked[2]? = some (.clear (plain 64) 1) ∧ lookupGen (.ready .testFailed) = none ∧ 2 ≤ (work (.lane 1) .verify 12).chan.val := by
  decide +kernel
theorem witness_VerifyDrops : ((inbound (.verifying (work (.lane 1) .verify 12) (peer 12) false (some 1))).inLine (.lane 1))[0]? =
      some (.verifying (work (.lane 1) .verify 12) (peer 12) false (some 1)) ∧
    (openFrame 0 8 (peer 12)).isNone = true ∧ (openFrame 0 7 (peer 12)).isSome = true ∧ ((keyed.chan 2).inSlot .b).state = .empty ∧
    ((keyed.chan 2).inSlot .a).load = 1 := by decide +kernel
/-- The slot states a verified frame can meet: CURRENT, and PENDING beside a CURRENT slot with grace 2000 or 0 and beside an EMPTY one. -/
theorem witness_VerifyJudges : openFrame 0 7 (peer 12) = some [0x08, 0x00, 5] ∧ ((keyed.chan 2).inSlot .a).state = .current ∧
    windowTest 256 10 [10] 12 = .fresh ∧ 0 < (keyed.chan 2).config.grace ∧ (keyed.chan 2).config.returnCheck = false ∧
    (2 : Chan).val = 2 := by decide +kernel
def pendingBeside (g : Nat) : Channel :=
  { keyed.chan 2 with
    config := { (keyed.chan 2).config with grace := g }
    inA := { (keyed.chan 2).inA with state := .pending }
    inB := { (keyed.chan 2).inA with epoch := some 9 } }
theorem witness_VerifyJudges_pending : ∀ g ∈ [0, 1], (pendingBeside g).inA.state = .pending ∧ (pendingBeside g).inB.state = .current ∧
    (pendingBeside g).inA.load = 1 ∧ (pendingBeside g).config.grace = g := by decide +kernel
theorem witness_InboundFrameHandedOn : ((inbound (.ready (.traffic (plain 64) 1 2 30 false))).lane 1).inLine =
      .ready (.traffic (plain 64) 1 2 30 false) :: [] ∧
    ((inbound (.ready .testFailed)).lane 1).inLine = .ready .testFailed :: [] ∧
    ((inbound (.ready (.request askTime 6 40))).inLine (.lane 1)) = .ready (.request askTime 6 40) :: [] := by decide +kernel
theorem witness_InboundFrameHandedOn_bounds : totalBytes [List.replicate (131072 - 64) 0] + 64 = 131072 ∧
    totalBytes [List.replicate (131072 - 63) 0] + 64 = 131073 := by
  have (n : Nat) : totalBytes [List.replicate n 0] = n := by simp [totalBytes]
  exact ⟨by rw [this], by rw [this]⟩

/-- Lane 2 with a timer that has just run out, in a state. -/
def timed (st : LaneState) : State :=
  { (linked.updLane 2 fun l => { l with state := st, continuity := some ⟨0, 5000⟩, beaconTimer := some ⟨4000, 1000⟩, rateTimer := some ⟨4990, 10⟩ }) with
    pending := [] }

theorem witness_LaneTimersExpire : ((timed .up).lane 2).continuity = some ⟨0, 5000⟩ ∧ 5000 ≤ ((timed .up).time - 0).toNat ∧
    1000 ≤ ((timed .up).time - 4000).toNat ∧ 10 ≤ ((timed .up).time - 4990).toNat ∧ blocked (timed .up) = false ∧
    ((timed .up).lane 2).loopMode = .none ∧ (assignSequence 1 (.unit 2) (timed .up)).1.isRight = true ∧
    (assignSequence 1 (.unit 2) idle).1.isLeft = true ∧ ((timed .looped).lane 2).state = .looped ∧ ((timed .los).lane 2).state = .los := by decide +kernel
/-- A beacon of the campus part for lane 1. -/
def beacon (lane code : Byte) : List Byte := [1, lane, code, 0, 0xFF, 0xFF, 0, 0] ++ List.replicate 12 0
theorem witness_BeaconHandedOn : ((inbound (.ready (.beacon (beacon 1 0) true 36 false))).lane 1).inLine = .ready (.beacon (beacon 1 0) true 36 false) :: [] ∧
    ((parseBeacon (beacon 1 0) true).map (·.lane)) = some 1 ∧ ((parseBeacon (beacon 4 3) true).map (·.lane)) = some 4 ∧
    parseBeacon (beacon 1 4) true = none ∧ parseBeacon (beacon 1 0) false = none ∧ (keyed.lane 1).state = .dark ∧
    (keyed.lane 1).loopMode = .none := by decide +kernel
/-- Each byte of R178 at its last defined and its first undefined value. -/
theorem test_beacon_encodings :
    (∀ p ∈ [(0, 0), (1, 5), (2, 4), (3, 32), (4, 4), (4, 254), (5, 4), (5, 254), (6, 3)],
      parseBeacon ((beacon 1 0).set p.1 (BitVec.ofNat 8 p.2)) true = none) ∧
    (∀ p ∈ [(1, 4), (2, 3), (3, 31), (4, 3), (4, 255), (5, 3), (5, 255), (6, 2), (7, 255)],
      (parseBeacon ((beacon 1 0).set p.1 (BitVec.ofNat 8 p.2)) true).isSome = true) ∧
    parseBeacon ((beacon 1 0).take 15) true = none := by decide +kernel
/-- The beacons a lane in CIPHER loopback takes and ignores, and an own-role one. -/
theorem witness_BeaconHandedOn_cipher : ∀ own ∈ [false, true],
    let s := inbound (.ready (.beacon (beacon 1 0) true 36 own)) |>.updLane 1 fun l => { l with loopMode := .cipher }
    (s.lane 1).inLine = .ready (.beacon (beacon 1 0) true 36 own) :: [] ∧ (s.lane 1).loopMode = .cipher ∧ (s.lane 1).state ≠ .los ∧
    (parseBeacon (beacon 1 0) true).isSome = true := by decide +kernel
/-- A beacon of sender role `r` (0 rack, 1 campus) for a lane, with a bridged lane, an echo and a loop code. -/
def beaconOf (r lane bridgedLane echo loop : Byte) : List Byte := [r, lane, 0, 0, bridgedLane, echo, loop, 0] ++ List.replicate 12 0
/-- Lane 1 with a REQUEST or RELEASE run that began at 0, auto-accept on, in a loop mode, at a time. -/
def looping (code : LoopField) (mode : LoopMode) (now : Time) : State :=
  { (inbound (.ready (.beacon (beaconOf 1 1 0xFF 0xFF (BitVec.ofNat 8 (loopCode code))) true 36 false))).updLane 1 fun l =>
      { l with autoAccept := true, persistence := 3, loopRun := some (code, 0), loopMode := mode } with time := now }
/-- A run exactly as long as the persistence begins and ends a loopback; one microsecond less does not. -/
theorem witness_BeaconLoopJudged : (∀ code ∈ [LoopField.request, .release], (parseBeacon (beaconOf 1 1 0xFF 0xFF (BitVec.ofNat 8 (loopCode code))) true).map
      (fun c => (c.lane, c.loop)) = some (1, code)) ∧ (keyed.lane 1).loopField ≠ .request ∧
    ((after (looping .request .none 3000000) [.inboundHandOn (.lane 1)]).lane 1).loopMode = .line ∧
    ((after (looping .request .none 2999999) [.inboundHandOn (.lane 1)]).lane 1).loopMode = .none ∧
    ((after (looping .release .line 3000000) [.inboundHandOn (.lane 1)]).lane 1).loopMode = .none ∧
    ((after (looping .release .line 2999999) [.inboundHandOn (.lane 1)]).lane 1).loopMode = .line := by decide +kernel
/-- L4 in a role and state with a beacon, the peer run at 2, the adoption run at a count of candidate 2. -/
def steered (r : Role) (st : LaneState) (own : Bool) (count : Nat) (b : List Byte) : State :=
  { idle.updLane 4 fun l => { l with state := st, peerRun := 2, inLine := [.ready (.beacon b (decide (r = .rack)) 36 own)] } with
    role := r, prot := { Protection.cold with candidate := some 2, adoptCount := count } }
/-- A campus beacon steers a rack part whose L4 comes UP with it; the third rack beacon for lane 2 is adopted by a campus part, the second is not; an
own-role beacon ends the adoption run. -/
theorem witness_SteeringAndAdoption :
    ((parseBeacon (beaconOf 1 4 0xFF 3 0) true).map fun c => (c.sender, c.lane, c.echo)) = some (.campus, 4, some 3) ∧
    ((parseBeacon (beaconOf 0 4 2 0xFF 0) false).map fun c => (c.sender, c.lane, c.bridgedLane)) = some (.rack, 4, some 2) ∧
    (after (steered .rack .dark false 0 (beaconOf 1 4 0xFF 3 0)) [.inboundHandOn (.lane 4)]).prot.steering = some 3 ∧
    (after (steered .campus .up false 2 (beaconOf 0 4 2 0xFF 0)) [.inboundHandOn (.lane 4)]).prot.echo = some 2 ∧
    (after (steered .campus .up false 1 (beaconOf 0 4 2 0xFF 0)) [.inboundHandOn (.lane 4)]).prot.echo = none ∧
    (after (steered .campus .up false 1 (beaconOf 0 4 2 0xFF 0)) [.inboundHandOn (.lane 4)]).prot.adoptCount = 2 ∧
    (after (steered .campus .up true 2 (beaconOf 0 4 2 0xFF 0)) [.inboundHandOn (.lane 4)]).prot.adoptCount = 0 := by decide +kernel
/-- A beacon that brings L4 UP makes it available, so that the arbiter of a rack part takes the failed L0; on a rack part with every lane UP, one on L1
whose far-fail set names L1 selects L1, with the classes judged afresh, and one whose set is empty changes neither (R126, R131 to R133). -/
theorem test_beacon_arbitrates :
    (let t := after (steered .rack .dark false 0 (beaconOf 1 4 0xFF 3 0)) [.inboundHandOn (.lane 4)]
     (t.lane 4).state = .up ∧ t.prot.selection = some 0) ∧
    (let s (far : Byte) := { inbound (.ready (.beacon ((beacon 1 0).set 3 far) true 36 false)) with
        lanes := (Vector.replicate 5 { Lane.cold false with state := .up }).set 1
          { Lane.cold false with state := .up, inLine := [.ready (.beacon ((beacon 1 0).set 3 far) true 36 false)] } }
     (after (s 2) [.inboundHandOn (.lane 1)]).prot.selection = some 1 ∧
     (after (s 2) [.inboundHandOn (.lane 1)]).prot.classes = #v[.none, .fail, .none, .none] ∧
     (after (s 0) [.inboundHandOn (.lane 1)]).prot.selection = none ∧
     (after (s 0) [.inboundHandOn (.lane 1)]).prot.classes = #v[.fail, .fail, .fail, .fail]) := by decide +kernel
/-- L4 UP with its LOS pin high or with its continuity timer just run out. -/
theorem witness_SteeringAndAdoption_lost : idle.pins.los.getLsbD 4 = false ∧
    (let s := { idle.updLane 4 fun l => { l with state := .up, continuity := some ⟨0, 3500⟩ } with time := 3500 }
     (s.lane 4).state ≠ .los ∧ (s.lane 4).continuity = some ⟨0, 3500⟩ ∧ 3500 ≤ (s.time - 0).toNat) := by decide +kernel
theorem witness_ControlQueueOffered : ((idle.updLane 2 fun l => { l with unitLine := [.passed .beacon [1]] }).lane 2).unitLine =
      .passed .beacon [1] :: [] ∧
    ([⟨.notice, [1]⟩, ⟨.test, [2]⟩, ⟨.test, [3]⟩] : List CtlFrame).length < 4 ∧ 4 ≤ ([⟨.notice, [1]⟩, ⟨.test, [2]⟩, ⟨.test, [3]⟩, ⟨.notice, [4]⟩] :
      List CtlFrame).length := by decide +kernel
theorem witness_LaneTransmits : blocked idle = false ∧ (idle.lane 2).tx = none ∧ (idle.lane 2).loopMode ≠ .line ∧ servedPort idle 2 = some 2 ∧
    servedPort idle 4 = none ∧ servedPort { idle with prot := { Protection.cold with selection := some 2 } } 4 = some 2 ∧
    malformed (enveloped 0x40 37 1 92) = false ∧ (headerChan (headerOf (enveloped 0x40 2 1 92))).val = 2 ∧
    headerOrigin (headerOf (enveloped 0x40 2 1 92)) = decide (idle.role = .campus) ∧ boundPort idle 2 = some 2 ∧ boundPort idle 4 = none := by
  decide +kernel
/-- A buffer frame fed back by a looped lane after a LOCK burn: with the peer's origin bit it is verified as a peer-role frame (log 44), else as an
own-role one. -/
theorem test_fed_back : ∀ r ∈ [Role.rack, .campus],
    ((after { keyed.updLane 1 fun l => { l with loopMode := .cipher, tx := some ⟨peer 12, .buffer 1 true⟩ } with role := r }
      [.laneTransmitEnd 1]).lane 1).inLine.map (fun i => match i with | .verifying _ _ own _ => some own | _ => none) = [some (decide (r = .campus))] := by
  decide +kernel
theorem witness_PauseFrameBegins : ((idle.updPort 2 fun p => { p with pendingPause := .on }).port 2).pendingPause = .on ∧ (idle.port 2).tx = none ∧
    blocked idle = false ∧ bufOccupancy (idle.port 2) ≤ 524288 := by decide +kernel
theorem witness_PortTransmits : (idle.port 2).hold = none ∧ (idle.port 2).pendingPause = .none ∧
    timerDue 7 (some ⟨0, 7⟩) = true ∧ timerDue 6 (some ⟨0, 7⟩) = false := by decide +kernel
theorem witness_SwitchRule : ¬ (inService (loaded.chan 2).outA ∧ inService (loaded.chan 2).outB) ∧ switchMade (loaded.chan 2) = true ∧
    switchMade (keyed.chan 2) = false ∧ switchMade { Channel.cold true with outB := { OutSlot.cold with state := .loaded } } = true :=
  ⟨(rollCheck_ok (by decide +kernel) : RolloverOk (loaded.chan 2)).1, by decide +kernel, by decide +kernel, by decide +kernel⟩
theorem witness_WaitTimersExpire : timerDue ({ idle with time := 60000000 } : State).time (some ⟨0, 60000000⟩) = true ∧
    ((loaded.updChan 2 fun ch => { ch with schedule := some 0 }).chan 2).schedule = some 0 ∧ idle.role = .rack ∧ waiting.selection = some 1 ∧
    (∀ m : PortId, waiting.force ≠ some m ∧ waiting.manual ≠ some m) ∧
    (∀ m : PortId, workingFailed { idle with lanes := mapVec (fun l => { l with state := .up }) idle.lanes } m = false) := by decide +kernel
/-- The kinds of a channel gather at its place; a channel without kinds joins at the tail (R165). -/
theorem test_add_kinds : addKinds 7 (kindBit .soft) [(3, kindBit .first), (7, kindBit .missed)] = [(3, kindBit .first), (7, 0x440)] ∧
    addKinds 0 (kindBit .authfail) [(3, kindBit .first)] = [(3, kindBit .first), (0, 0x800)] := by decide
theorem witness_ArbiterRuns : (∀ n : PortId, (#v[.none, .none, .none, .none] : Vector ReqClass 4)[n] = .none) ∧
    (∃ n : PortId, (#v[.none, .none, .none, .wait] : Vector ReqClass 4)[n] ≠ .none) := by decide

/-! #### The agent and the directives -/

theorem witness_SenderOffers : ({ Agent.cold with hand := some ⟨.lane 1, .reply true, .ready [1] (some 0)⟩ } : Agent).hand =
    some ⟨.lane 1, .reply true, .ready [1] (some 0)⟩ := rfl
/-- A full control queue, outside LINE loopback and in it; a reply that fills a delivery queue to its last byte, and one byte more. -/
theorem witness_SenderOffers_full : ∀ mode ∈ [LoopMode.none, .line],
    let s := (idle.updLane 1 fun l => { l with control := List.replicate 4 ⟨.test, [1]⟩, loopMode := mode })
    4 ≤ (s.lane 1).control.length ∧ (s.lane 1).loopMode = mode ∧ (131072 - 64) + 64 ≤ 131072 ∧ 131072 < (131072 - 63) + 64 := by decide +kernel
/-- A TIME-READ that waits, one that need not, and a part with a restart pending. -/
theorem witness_RunnerRuns_waits : timeWaits (after askedTwice [.runnerTakeRequest 1]) = true ∧
    timeWaits (after askedTwice [.runnerTakeRequest 1, .timeCounterCount]) = false ∧
    (after idle [.restart []]).agent.restart = some ⟨0, 1000000⟩ := by decide +kernel
theorem witness_RunnerRuns : blocked asked = false ∧ opBusy asked = false ∧ asked.agent.run = some ⟨7, .lane 1, 6, [⟨0x23, []⟩], []⟩ ∧
    messageSize [] + 4 + dataSize ⟨0x23, []⟩ + 4 * 0 ≤ 9200 ∧
    9200 < messageSize (List.replicate 7 ⟨0x60, .done, List.replicate 1282 0⟩) + 4 + dataSize ⟨0x60, [0, 0, 16, 1]⟩ + 4 * 0 ∧
    (perform true ⟨0x23, []⟩ (taken asked) matches .ended _ _ _) = true ∧ (perform true ⟨0x34, [0, 0, 0, 1, 0, 1, 0]⟩ idle matches .begun _) = true := by
  decide +kernel
/-- No request is taken and no directive runs while a move or a burn is under way (R54, R174). -/
theorem test_runner_busy : ∀ s ∈ [{ asked with move := some ⟨10, 12, 5, true⟩ }, { asked with burn := some ⟨3, 15, ⟨0, 100⟩⟩ }],
    opBusy s = true ∧ (after s [.runnerTakeRequest 1]).agent.run = asked.agent.run ∧ (after s [.timeRead []]).lastRecord = none := by decide +kernel
theorem witness_ChannelDirectives : fieldList configFields [9] = none ∧ fieldList configFields [1, 0, 0, 3, 1] = some [(1, [0, 0]), (3, [1])] ∧
    flagInRange [(3, [1])] 3 = true ∧ flagInRange [(3, [2])] 3 = false ∧ numAt [0x03, 0xFF] 0 2 = 1023 ∧ numAt [0x04, 0x00] 0 2 = 1024 ∧
    numAt [0, 2] 0 2 = 2 ∧ (idle.chan 2).isOpen = false ∧ (keyed.chan 2).isOpen = true ∧ ((loaded.chan 2).outSlot .b).state ≠ .draining := by
  decide +kernel
/-- A number twice, one that is foreign, a value cut short, two fields in falling order, no field (R177). -/
theorem witness_ChannelDirectives_lists : fieldList configFields [3, 1, 3, 0] = none ∧ fieldList portFields [4, 0] = none ∧ fieldList laneFields [1, 0] = none ∧
    fieldList entryFields [8, 3, 0xFF, 6, 1, 8, 0] = some [(8, [3, 0xFF]), (6, [1, 8, 0])] ∧ fieldList testFields [] = some [] ∧
    fieldNat [(8, [3, 0xFF]), (6, [1, 8, 0])] 8 = some 1023 := by decide +kernel
theorem witness_KeyDirectives : (List.replicate 37 (0 : Byte)).length = 37 ∧ targetOf (numAt [0, 2, 2, 1] 2 1) = some (true, true) ∧
    letterOf (numAt [0, 2, 2, 1] 3 1) = some .b ∧ staged.staging.valid = true ∧ staged.pins.zeroizeHigh = true ∧ (staged.chan 2).isOpen = true ∧
    ((staged.chan 2).outSlot .a).epoch ≠ some staged.staging.epoch ∧ ((staged.chan 2).inSlot .a).epoch ≠ some staged.staging.epoch ∧
    ((staged.chan 2).outSlot .b).state = .empty ∧ ((staged.chan 2).inSlot .b).state = .empty ∧ numAt [0, 2, 3, 1] 2 1 = 3 := by decide +kernel
theorem witness_SwitchDirectives : switchMade (loaded.chan 2) = true ∧ switchTarget (loaded.chan 2) = .b ∧
    ((loaded.chan 2).outSlot .b).epoch = some 5 ∧ numAt [0, 2, 0, 0, 0, 0, 0, 0, 0, 9] 2 8 = 9 ∧ loaded.time < 9 ∧ loaded.time ≤ 0 := by decide +kernel
theorem witness_RuleEdits : fieldList entryFields [4, 2, 5, 0, 0, 0x0F, 0xFF] = some [(4, [2]), (5, [0, 0, 0x0F, 0xFF])] ∧
    entryRange [(4, [2]), (5, [0, 0, 0x0F, 0xFF])] = true ∧ entryRange [(4, [2]), (5, [0, 1, 0, 0])] = false ∧
    given [(4, [2]), (5, [0, 0, 0x0F, 0xFF])] 5 = true ∧ fieldNat [(4, [2])] 4 = some 2 ∧ given [(7, [0])] 8 = false ∧
    fieldNat [(7, [0]), (8, [3, 0xFF])] 8 = some 1023 ∧ numAt [0, 255] 0 2 = 255 ∧ numAt [1, 0] 0 2 = 256 := by decide +kernel
/-- The ends of each range of R50. -/
theorem witness_RuleEdits_ranges : entryRange [(1, [1]), (2, [2]), (3, [15]), (4, [1]), (7, [2])] = true ∧ entryRange [(1, [2])] = false ∧
    entryRange [(2, [3])] = false ∧ entryRange [(3, [16])] = false ∧ entryRange [(4, [3])] = false ∧ entryRange [(4, [2]), (5, [0x10, 0, 0x10, 0])] = false ∧
    entryRange [(6, [1, 0, 0])] = true ∧ entryRange [(6, [2, 0, 0])] = false ∧ entryRange [(7, [0]), (8, [0, 1])] = false ∧
    entryRange [(7, [0]), (8, [0, 2])] = true ∧ entryRange [(7, [0]), (8, [4, 0])] = false := by decide +kernel
theorem witness_RuleClear : numAt [0, 255, 0, 1] 0 2 + numAt [0, 255, 0, 1] 2 2 = 256 ∧ numAt [0, 0, 1, 0] 2 2 = 256 ∧
    256 < numAt [0, 255, 0, 2] 0 2 + numAt [0, 255, 0, 2] 2 2 ∧ numAt [0, 0, 0, 0] 2 2 = 0 := by decide
theorem witness_RuleMove : ([0, 0, 0, 255, 0, 1, 1] : List Byte).length = 7 ∧ numAt [0, 0, 0, 255, 0, 1, 1] 2 2 + numAt [0, 0, 0, 255, 0, 1, 1] 4 2 = 256 ∧
    numAt [0, 0, 0, 255, 0, 1, 1] 6 1 = 1 ∧ ({ idle with move := some ⟨0, 255, 1, false⟩ } : State).move = some ⟨0, 255, 1, false⟩ := by decide +kernel
/-- The ends of the destination of an overlapping move, each with the source entry it repeats. -/
theorem witness_RuleMove_repeats : 10 < 12 ∧ 16 < 12 + 5 ∧ 10 = 10 + (16 - 12) % (12 - 10) ∧ 12 + 5 - 1 - 12 = 4 ∧
    16 + 1 + (10 + 5 - 1 - 10) % (12 - 10) = 12 + 5 ∧ 16 + 1 + (10 + 5 - 1 - 14) % (12 - 10) = 12 + 5 := by decide
theorem witness_PortAndLaneSettings : fieldList portFields [3, 0] = some [(3, [0])] ∧ numAt [3] 0 1 = 3 ∧ numAt [4] 0 1 = 4 ∧
    fieldList laneFields [4, 255] = some [(4, [255])] ∧ fieldNat [(4, [4])] 4 = some 4 ∧ fieldList laneFields [6] = none ∧ idle.role = .rack := by
  decide +kernel
theorem witness_LoopAndTestDirectives : fieldList loopFields [1, 1] = some [(1, [1])] ∧ numAt [4, 1] 0 1 = 4 ∧ bridged idle = none ∧
    fieldAtMost [(1, [2])] 1 1 = false ∧ fieldList testFields [2, 0, 1] = some [(2, [0, 1])] ∧ (idle.lane 4).genOn = false ∧
    (idle.lane 4).loopMode = .none := by decide +kernel
/-- L4 of a RACK part whose LINE loopback a LOOP-SET ends (LOOP set, overrun counted), and one that enters CIPHER. -/
theorem test_loop_set_standby :
    (let t := after (idle.updLane 4 fun l => { l with loopMode := .line, returnQueue := [[1], [2]] }) [.loopSet [4, 1, 0]]
     t.agent.devices = 4 ∧ (t.lane 4).loopMode = .none ∧ ((t.lane 4).ctr .loopOverrun).toNat = 2 ∧ (t.lane 4).returnQueue = []) ∧
    (let t := after idle [.loopSet [4, 1, 1]]
     t.agent.devices = 0 ∧ (t.lane 4).loopMode = .cipher) := by decide +kernel
/-- R20: a counter stays at 2^48 − 1. -/
theorem test_counter_saturates : (addCounter (BitVec.ofNat 48 (2 ^ 48 - 2)) 1).toNat = 2 ^ 48 - 1 ∧
    (addCounter (BitVec.allOnes 48) 1).toNat = 2 ^ 48 - 1 ∧ (addCounter (BitVec.ofNat 48 (2 ^ 48 - 2)) 9216).toNat = 2 ^ 48 - 1 := by decide +kernel
theorem witness_CounterDirectives : numAt [3, 0xFF, 16, 1] 0 2 = 1023 ∧ numAt [3, 0xFF, 16, 1] 2 1 = 16 ∧ numAt [3, 0xFF, 17, 1] 2 1 = 17 ∧
    numAt [9, 10, 1] 0 1 = 9 ∧ numAt [9, 10, 1] 1 1 = 10 ∧ numAt [9, 10, 2] 2 1 = 2 := by decide
theorem witness_ReadDirectives : numAt [0x03, 0xFF] 0 2 = 1023 ∧ numAt [1, 0, 255] 0 1 = 1 ∧ numAt [1, 0, 255] 1 2 = 255 ∧ numAt [1, 1, 0] 1 2 = 256 := by
  decide
/-- A FADING slot with 3,999 µs left, a WTR timer with 1 µs left, and a notice destination at a lane. -/
theorem witness_ReadLayouts :
    (let i : InSlot := { InSlot.cold with state := .fading, graceTimer := some ⟨1, 4000⟩ }
     RoundedUp 1000 (4000 - (2 - 1)) 4 ∧ slice (inSlotBytes 2 i) 23 2 = [0, 4]) ∧ RoundedUp 1000000 1 1 ∧
    slice (statusBytes { idle with prot := { Protection.cold with wtrTimer := some ⟨0, 1⟩ }, agent := { Agent.cold with dest := some (.lane 4, 6) } }) 190 20 =
      [0, 1, 0, 0xFF, 0, 0, 0, 0, 0, 0, 0, 8, 0, 0, 0, 0, 0, 6, 0] ∧ slice (statusBytes idle) 201 7 = [0xFF, 0, 0, 0, 0, 0, 0] := by
  refine ⟨⟨⟨by decide, by decide⟩, by decide +kernel⟩, ⟨by decide, by decide⟩, by decide +kernel, by decide +kernel⟩
/-- An entry record with bounds, a reply of two records and a notice of one entry, byte by byte (12.3 to 12.5). -/
theorem test_layouts :
    entryBytes 0 { bank[0] with vlan := .range 1 4095, etype := some 0x0806, action := .protect 1023 } =
      [flagByte bank[0].valid, BitVec.ofNat 8 (directionCode bank[0].direction), bank[0].ports.setWidth 8, 2, 0, 1, 0x0F, 0xFF, 1, 8, 6, 0, 3, 0xFF] ∧
    replyMessage 7 1 [⟨0x35, .done, [0, 5]⟩, ⟨0x23, .skipped, []⟩] = [0, 7, 2, 1, 0x35, 0, 0, 2, 0, 5, 0x23, 6, 0, 0] ∧
    noticeMessage idle 3 [(37, 32)] 2 = [0, 0, 0, 7, 3, 2, 2, 2, 2, 2, 0xFF, 0xFF, 0xFF, 0, 2, 1, 0, 37, 0, 32] := by decide +kernel
theorem witness_AgentDirectives : numAt [0x0F, 0xFF] 0 2 = 4095 ∧ numAt [0x10, 0] 0 2 = 4096 ∧ lockBit locked = true ∧ locked.pins.zeroizeHigh = true ∧
    lockBit idle = false := by decide +kernel
theorem witness_AgentDirectives_last : isLast idle ∧ isLast asked := by
  constructor
  · intro r h; cases h
  · intro r h; cases h; rfl
/-- A change of the role either way, with a port bridged under the old one. -/
theorem witness_IdBurn_role : storeRole (turning .rack 2) = .campus ∧ bridged (turning .rack 2) = some 2 ∧ storeRole (turning .campus 0) = .rack ∧
    bridged (turning .campus 0) = some 2 ∧ (turning .rack 2).burn = some ⟨4, 0, ⟨0, 100⟩⟩ := by decide +kernel
theorem witness_IdBurn : numAt [31, 15] 0 1 = 31 ∧ numAt [4, 3] 1 1 = 3 ∧ lockBit idle = false ∧ idle.store[31].getLsbD 15 = false ∧
    (({ idle with time := 100 } : State).time - 0).toNat = 100 ∧ (badStore.store[4].getLsbD 0) = true := by decide +kernel

/-! #### What holds of every directive, frame and step -/

theorem witness_DirectiveOutcomes : (perform true ⟨0x23, []⟩ idle matches .ended .done _ _) = true ∧
    (perform true ⟨0x23, [1]⟩ idle matches .ended .format _ _) = true := by decide +kernel
theorem witness_KeysNeverReadBack : SameButKeys keyed { keyed with staging := { keyed.staging with key := 5 } } ∧ (0x13 : Byte) ≠ codeKeyCommit :=
  ⟨⟨fun _ => rfl, rfl⟩, by decide⟩
theorem witness_VerifyOpensProtect : headerChan ⟨0x40, 0, 0x03FF, 1⟩ = 1023 ∧ headerChan ⟨0x50, 0, 1, 1⟩ = 1 := by decide
/-- Frames that come apart into head, inner part and tag, of a traffic channel and of channel 1. -/
theorem witness_VerifyOpensProtect_received : (frameBody (peer 12)).length = 24 + 3 + 16 ∧ headerChan (headerOf (peer 12)) = 2 ∧
    (frameBody (sealLink 0 7 9 8 ⟨0x50, 0, 1, 1⟩ [5] false)).length = 24 + 1 + 16 ∧
    headerChan (headerOf (sealLink 0 7 9 8 ⟨0x50, 0, 1, 1⟩ [5] false)) = 1 ∧ protectText 0 (nonceOf 7 ⟨0x40, 4, 0x8002, 12⟩)
      ((peer 12).take 24) [0x08, 0x00, 5] = (((peer 12).drop 24).take 3, ((peer 12).drop 27).take 16) := by decide +kernel
/-- A CLEAR frame with a short message and the inner frame recovered from it, as bytes (R2, R3, R10). -/
theorem witness_VerifyOpensProtect_clear :
    frameBody (clearFrame 9 8 ⟨0x60, 0, 0x8000, 1⟩ (padMessage 28 [5])) =
      [0, 0, 0, 0, 0, 9, 0, 0, 0, 0, 0, 8, 0x9A, 0x3C, 0x60, 0, 0x80, 0, 0, 0, 0, 0, 0, 1, 5] ++ List.replicate 35 0 ∧
    frameBody (recoveredFrame (peer 12) [0x08, 0x00, 5]) = [0, 0, 0, 0, 0, 9, 0, 0, 0, 0, 0, 8, 0x08, 0x00, 5] ++ List.replicate 45 0 ∧
    16 ≤ (peer 12).length ∧ clearPart (clearFrame 9 8 ⟨0x60, 0, 0x8000, 1⟩ [5, 6]) = [5, 6] := by decide +kernel
theorem witness_SenderJudged : (assignSequence 0 .agent idle).1.isLeft = true ∧ (assignSequence 0 .agent (loadChannel0 locked)).1.isRight = true ∧
    lockBit locked = true ∧ lockBit idle = false ∧ ((loadChannel0 locked).chan 0).outA.state = .live ∧
    (kindBit .lane) &&& ~~~(kindBit .queue) ≠ 0 := by decide +kernel
/-- A state that is not right after reset, meets the condition and takes a step. -/
theorem witness_StepKeepsRollover : RolloverInv idle ∧ step { idle with pending := [.timeRead []] } = exec (.timeRead []) idle := by
  refine ⟨⟨fun c => rollCheck_ok ?_, ?_⟩, rfl⟩
  · have : idle.chan c = Channel.cold (decide (c.val < 2)) := coldChannels_get c
    rw [this]; cases decide (c.val < 2) <;> rfl
  · intro h; rcases h with h | h <;> exact absurd h (by decide +kernel)
theorem witness_StepKeepsSlots : SlotsInv idle := by
  have h : ∀ c : Chan, idle.chan c = Channel.cold (decide (c.val < 2)) := coldChannels_get
  refine ⟨by rw [h]; rfl, fun c => ?_⟩
  rw [h]
  refine ⟨fun x _ => ?_, fun x _ => ?_, fun _ x => ?_, fun x => ?_⟩ <;> cases x
  all_goals first | exact ⟨rfl, rfl, rfl, rfl, rfl, rfl, rfl, rfl⟩ | exact ⟨rfl, rfl, rfl, rfl, rfl, rfl, rfl, rfl, rfl⟩ | rfl |
    exact ⟨List.Pairwise.nil, fun m hm => absurd hm (by simp [Channel.cold, Channel.inSlot, InSlot.cold])⟩
theorem witness_StepKeepsQueues : CapacityInv idle := by
  refine ⟨?_, ?_, ?_⟩ <;> decide +kernel
/-- A line with a return check under way on the old bank, a lookup on the new, and behind both a frame in verification and one that awaits its own. -/
def ordered : List InItem :=
  [.checking (plain 64) 1 2 30 false ⟨none, .protect 2, 0⟩, .lookup (plain 64) 1 ⟨none, .bypass, 1⟩] ++ unchecked
theorem witness_StepKeepsQueues_order : LookupsInOrder { inLane ordered with bankGen := 1 } := by
  have ho : LineInOrder 1 ordered := ⟨by simp [ordered, unchecked, JudgedInOrder, lookupGen, mayLookUp], by simp [ordered, unchecked, lookupGen]⟩
  have he : ∀ k, k ≠ 1 → ((inLane ordered).lane k).inLine = [] := by decide +kernel
  have hn : ∀ n, ((inLane ordered).port n).outLine = [] := by decide +kernel
  refine ⟨fun k => ?_, fun n => ?_⟩
  · show LineInOrder 1 ((inLane ordered).lane k).inLine
    by_cases hk : k = 1
    · subst hk; rw [inLane, State.updLane_lane_eq]; exact ho
    · rw [he k hk]; exact ⟨List.Pairwise.nil, fun a ha => absurd ha List.not_mem_nil⟩
  · show ((inLane ordered).port n).outLine.Pairwise _ ∧ ∀ a ∈ ((inLane ordered).port n).outLine, _
    rw [hn n]; exact ⟨List.Pairwise.nil, fun a ha => absurd ha List.not_mem_nil⟩
theorem witness_StoreBitsOnlyRise : step { locked with pending := [.idBurn [0, 0]] } = exec (.idBurn [0, 0]) locked ∧ locked.burn = none ∧
    lockBit locked = true := by
  refine ⟨rfl, ?_⟩; decide +kernel

end Tests
end

section
/-! The statements on RULE-CLEAR and TABLE-REVERT: each directive is one rule on the state, which a command that can run carries into its record. -/

namespace Sys2Proof.Classification
open Sys2Proof.Machine Sys2Proof.Safety

/-! ### The two directives behind their commands -/

theorem exec_ruleClear (ops : List Byte) (s : State) : exec (.ruleClear ops) s = .next (takeDirective codeRuleClear ops s) := rfl

theorem exec_tableRevert (ops : List Byte) (s : State) : exec (.tableRevert ops) s = .next (takeDirective codeTableRevert ops s) := rfl

theorem perform_ruleClear (last : Bool) (ops : List Byte) (s : State) : perform last ⟨codeRuleClear, ops⟩ s = dirRuleClear ops s := rfl

theorem perform_tableRevert (last : Bool) (ops : List Byte) (s : State) : perform last ⟨codeTableRevert, ops⟩ s = dirTableRevert ops s := rfl

theorem dirRuleClear_refused {ops : List Byte} (s : State) (hl : ops.length = 4)
    (h : numAt ops 2 2 = 0 ∨ 255 < numAt ops 0 2 ∨ 256 < numAt ops 0 2 + numAt ops 2 2) : dirRuleClear ops s = .ended .range [] s := by
  simp only [dirRuleClear, hl, ne_eq, not_true_eq_false, if_false, if_pos h, dirRefused]

/-- A range of at least one entry that ends within the bank passes every test of R52. -/
theorem dirRuleClear_done {ops : List Byte} (s : State) (hl : ops.length = 4) (hpos : 0 < numAt ops 2 2)
    (hfit : numAt ops 0 2 + numAt ops 2 2 ≤ 256) :
    dirRuleClear ops s = .ended .done [] { s with shadow := clearEntries s.shadow (numAt ops 0 2) (numAt ops 2 2) } := by
  have h : ¬ (numAt ops 2 2 = 0 ∨ 255 < numAt ops 0 2 ∨ 256 < numAt ops 0 2 + numAt ops 2 2) := by omega
  simp only [dirRuleClear, hl, ne_eq, not_true_eq_false, if_false, if_neg h, dirDone]

theorem dirTableRevert_done (s : State) : dirTableRevert [] s = .ended .done [] { s with shadow := s.active } := rfl

/-! ### The bank that RULE-CLEAR leaves -/

theorem clearEntries_get (b : Bank) (first count : Nat) (i : Fin 256) :
    (clearEntries b first count)[i] = if first ≤ i.val ∧ i.val < first + count then Entry.cleared else b[i] := by
  simp only [clearEntries, Fin.getElem_fin, Vector.getElem_ofFn]

theorem clearEntries_get_inside (b : Bank) {first count : Nat} {i : Fin 256} (hlo : first ≤ i.val) (hhi : i.val < first + count) :
    (clearEntries b first count)[i] = Entry.cleared := by
  rw [clearEntries_get, if_pos ⟨hlo, hhi⟩]

theorem clearEntries_get_outside (b : Bank) {first count : Nat} {i : Fin 256} (h : i.val < first ∨ first + count ≤ i.val) :
    (clearEntries b first count)[i] = b[i] := by
  rw [clearEntries_get, if_neg (by omega)]

/-! ### A bank without a valid entry -/

@[simp] theorem commitTable_active (s : State) : (commitTable s).active = s.shadow := rfl

theorem entryMatches_of_not_valid {e : Entry} (h : e.valid = false) (u : Use) (pos : PortId) (inner : List Byte) :
    entryMatches e u pos inner = false := by
  simp [entryMatches, h]

/-- An entry that is not valid never matches (R41), so a bank of them answers NO-MATCH. -/
theorem beginLookup_noMatch_of_not_valid {s : State} (h : ∀ i : Fin 256, s.active[i].valid = false) (u : Use) (pos : PortId) (inner : List Byte) :
    (beginLookup s u pos inner).verdict = .noMatch := by
  rcases beginLookup_spec s u pos inner with ⟨-, -, hverdict⟩ | ⟨i, hmatch, -⟩
  · exact hverdict
  · rw [entryMatches_of_not_valid (h i)] at hmatch
    exact absurd hmatch Bool.false_ne_true

/-- A bank cleared whole and put in service (R52, R55) answers NO-MATCH. -/
theorem beginLookup_commitTable_cleared {t : State} {b : Bank} (h : t.shadow = clearEntries b 0 256) (u : Use) (pos : PortId) (inner : List Byte) :
    (beginLookup (commitTable t) u pos inner).verdict = .noMatch := by
  refine beginLookup_noMatch_of_not_valid (fun i => ?_) u pos inner
  rw [commitTable_active, h, clearEntries_get_inside b (Nat.zero_le _) (by omega)]
  rfl

/-! ### The statements -/

/-- Settles O40: the tests of R52 sort the operands, and an entry of the bank left is cleared or kept by whether its index lies in the range. -/
theorem ruleClear : Obligations.RuleClear := by
  intro ops s first count hready hlength hfirst hcount
  subst hfirst hcount
  constructor
  · intro hbad
    rw [exec_ruleClear, takeDirective_ended hready ((perform_ruleClear ..).trans (dirRuleClear_refused _ hlength hbad))]
  · intro hpos hfit
    refine ⟨clearEntries s.shadow (numAt ops 0 2) (numAt ops 2 2), ?_, ?_, ?_, ?_⟩
    · rw [exec_ruleClear, takeDirective_ended hready ((perform_ruleClear ..).trans (dirRuleClear_done _ hlength hpos hfit)), taken_shadow]
    · exact fun i hlo hhi => clearEntries_get_inside _ hlo hhi
    · exact fun i hout => clearEntries_get_outside _ hout
    · intro hzero hwhole t ht
      rw [hzero, hwhole] at ht
      exact beginLookup_commitTable_cleared ht

/-- Settles O43: the directive without operands passes its one test, and all it writes is the SHADOW bank. -/
theorem tableRevert : Obligations.TableRevert := by
  intro s hready
  refine ⟨{ taken s with shadow := (taken s).active }, ?_, fun i => by rw [taken_active], taken_active s, taken_hits s, rfl⟩
  rw [exec_tableRevert, takeDirective_ended hready ((perform_tableRevert ..).trans (dirTableRevert_done _))]

end Sys2Proof.Classification
end

section
/-! The statement on PORT_TRANSMIT_PAUSE: an idle transmitter begins the pending pause frame, with the quanta of R112 where it is an ON frame. -/

namespace Sys2Proof.PausePort
open Sys2Proof.Machine

/-! ### The quanta of an ON frame (R112) -/

theorem ceilDiv_le_iff {a b c : Nat} (hb : 0 < b) : ceilDiv a b ≤ c ↔ a ≤ b * c := by
  rw [ceilDiv, ← Nat.ceilDiv_eq_add_pred_div, ceilDiv_le_iff_le_smul hb, smul_eq_mul]

theorem pauseQuanta_pos (p : Port) : 1 ≤ pauseQuanta p := le_max_left _ _

/-- A number of quanta is large enough just when it is at least 1 and its units of 64 bytes cover the excess over XON. -/
theorem pauseQuanta_le_iff (p : Port) (q : Nat) : pauseQuanta p ≤ q ↔ 1 ≤ q ∧ bufOccupancy p - p.xon ≤ 64 * q := by
  rw [pauseQuanta, max_le_iff, ceilDiv_le_iff (by decide)]

theorem excess_le_pauseQuanta (p : Port) : bufOccupancy p - p.xon ≤ 64 * pauseQuanta p :=
  ((pauseQuanta_le_iff p _).mp le_rfl).2

/-- Quanta above 1 are the least that cover the excess: one unit fewer does not. -/
theorem lt_excess_of_one_lt_pauseQuanta {p : Port} (h : 1 < pauseQuanta p) : 64 * (pauseQuanta p - 1) < bufOccupancy p - p.xon := by
  by_contra hcovered
  have hle : pauseQuanta p ≤ pauseQuanta p - 1 := (pauseQuanta_le_iff p _).mpr ⟨by omega, by omega⟩
  omega

/-- A buffer within its capacity of 524,288 bytes asks for at most 8,192 quanta. -/
theorem pauseQuanta_le_of_occupancy {p : Port} (h : bufOccupancy p ≤ 524288) : pauseQuanta p ≤ 8192 :=
  (pauseQuanta_le_iff p _).mpr ⟨by decide, by omega⟩

/-! ### The command at an idle transmitter (R111, R117) -/

section
variable {n : PortId} {s : State}

theorem exec_portTransmitPause_idle (hblocked : blocked s = false) (hidle : (s.port n).tx = none) :
    exec (.portTransmitPause n) s = .next (beginPauseFrame n s) := by
  show execPortTransmitPause n s = _
  simp [execPortTransmitPause, hblocked, hidle]

theorem beginPauseFrame_on (h : (s.port n).pendingPause = .on) :
    beginPauseFrame n s = s.updPort n fun p => { p.count .pauseSent with
      tx := some { bytes := pauseFrame s.ownAddr (pauseQuanta (s.port n)), final := false }
      pendingPause := .none
      announced := true
      refresh := some (startTimer s (quantaMicros (pauseQuanta (s.port n)))) } := by
  simp only [beginPauseFrame, h]
  rfl

theorem beginPauseFrame_off (h : (s.port n).pendingPause = .off) :
    beginPauseFrame n s = s.updPort n fun p => { p.count .releaseSent with
      tx := some { bytes := pauseFrame s.ownAddr 0, final := false }
      pendingPause := .none
      announced := false } := by
  simp only [beginPauseFrame, h]
  rfl

theorem beginPauseFrame_none (h : (s.port n).pendingPause = .none) : beginPauseFrame n s = s := by
  simp only [beginPauseFrame, h]

end

/-! ### The statement -/

/-- Settles O29: an idle transmitter begins what is pending, and the quanta of an ON frame are the least that cover the excess over XON. -/
theorem pauseFrameBegins : Obligations.PauseFrameBegins := by
  intro n s hblocked hidle
  rw [exec_portTransmitPause_idle hblocked hidle]
  refine ⟨fun hon => ?_, fun hoff => ?_, fun hnone => ?_⟩
  · refine ⟨pauseQuanta (s.port n), startTimer s (quantaMicros (pauseQuanta (s.port n))), ?_, pauseQuanta_le_of_occupancy, ?_⟩
    · exact ⟨pauseQuanta_pos _, excess_le_pauseQuanta _, lt_excess_of_one_lt_pauseQuanta⟩
    · rw [beginPauseFrame_on hon]
  · rw [beginPauseFrame_off hoff]
  · rw [beginPauseFrame_none hnone]

end Sys2Proof.PausePort
end

section
/-! The statement on ID-READ: the directive reports the store word by word and writes nothing, and STATUS-READ carries the latched role and LOCK. -/

namespace Sys2Proof.IdentityStore
open Sys2Proof.Machine Sys2Proof.Safety

/-! ### Strings made of blocks of one size -/

/-- Block `i` of a string whose blocks all hold `k` bytes begins at byte `k * i`. -/
theorem slice_flatMap_of_length {α : Type} {f : α → List Byte} {k : Nat} (hf : ∀ a, (f a).length = k) (l : List α) (i : Nat) (h : i < l.length) :
    slice (l.flatMap f) (k * i) k = f l[i] := by
  induction l generalizing i with
  | nil => exact absurd h (Nat.not_lt_zero i)
  | cons a l ih =>
    cases i with
    | zero => simp [slice, ← hf a]
    | succ i =>
      have hskip : slice ((a :: l).flatMap f) (k * (i + 1)) k = slice (l.flatMap f) (k * i) k := by
        rw [List.flatMap_cons, Nat.mul_succ, Nat.add_comm, ← hf a, slice, slice, List.drop_length_add_append]
      rw [hskip, ih i (Nat.lt_of_succ_lt_succ h), List.getElem_cons_succ]

/-! ### The words of the store as ID-READ reports them (R173) -/

@[simp] theorem idWordBytes_length (st : Store) (w : Fin 32) : (idWordBytes st w).length = 2 := beBytes_length ..

theorem idReadBytes_length (st : Store) : (idReadBytes st).length = 64 := by
  simp [idReadBytes, List.length_flatMap]

theorem slice_idReadBytes (st : Store) (w : Fin 32) : slice (idReadBytes st) (2 * w.val) 2 = idWordBytes st w := by
  rw [idReadBytes, slice_flatMap_of_length (idWordBytes_length st) _ w.val (by simp), List.getElem_finRange]
  rfl

/-! ### The directive behind its command -/

theorem exec_idRead (ops : List Byte) (s : State) : exec (.idRead ops) s = .next (takeDirective codeIdRead ops s) := rfl

theorem perform_idRead (last : Bool) (ops : List Byte) (s : State) : perform last ⟨codeIdRead, ops⟩ s = dirIdRead ops s := rfl

theorem dirIdRead_refused {ops : List Byte} (s : State) (h : ops ≠ []) : dirIdRead ops s = .ended .format [] s := by
  rw [dirIdRead, if_pos (mt List.eq_nil_of_length_eq_zero h), dirRefused]

theorem dirIdRead_done (s : State) : dirIdRead [] s = .ended .done (idReadBytes s.store) s := rfl

/-! ### The role and LOCK in STATUS-READ (R164) -/

theorem statusBytes_role (s : State) : (statusBytes s)[2]? = some (BitVec.ofNat 8 (roleCode s.role)) := rfl

theorem statusBytes_lock (s : State) : (statusBytes s)[3]? = some (flagByte (lockBit s)) := rfl

theorem roleCode_byte (r : Role) : BitVec.ofNat 8 (roleCode r) = if r = .campus then 1 else 0 := by
  cases r <;> rfl

/-! ### The statement -/

/-- Settles O49: the directive has one test, and the data it returns is cut into the words of the store. -/
theorem idRead : Obligations.IdRead := by
  refine ⟨fun ops s hready => ⟨fun hops => ?_, fun hops => ?_⟩, fun s => ⟨?_, ?_⟩⟩
  · rw [exec_idRead, takeDirective_ended hready ((perform_idRead ..).trans (dirIdRead_refused _ hops))]
  · subst hops
    refine ⟨idReadBytes s.store, ?_, idReadBytes_length s.store, slice_idReadBytes s.store⟩
    rw [exec_idRead, takeDirective_ended hready ((perform_idRead ..).trans (dirIdRead_done _)), taken_store]
  · rw [statusBytes_role, roleCode_byte]
  · rw [statusBytes_lock, flagByte]

end Sys2Proof.IdentityStore
end

section
/-! What the operations on one channel record keep: the rollover condition (R28, R94, R102), the order of slots and windows (R18, R24, R81), and a record
without keys. -/

namespace Sys2Proof.Kept
open Sys2Proof.Machine Sys2Proof.Safety

/-! ### The conditions of a record, slot by slot -/

/-- Two inbound slots of a record stand to each other as rollover has them (R28, R102). -/
def InPairOk (i j : InSlot) : Prop :=
  ¬ (i.state = .current ∧ j.state = .current) ∧ (i.state = .fading → j.state = .current) ∧ (j.state = .fading → i.state = .current) ∧
  (i.state ≠ .empty → j.state ≠ .empty → i.epoch ≠ j.epoch)

/-- An outbound slot holds nothing when it is EMPTY (R24). -/
def OutOk (o : OutSlot) : Prop := o.state = .empty → OutCleared o

/-- An inbound slot of a channel that is OPEN or CLOSED, under window size `w`, is in order (R18, R24, R81). -/
def InOk (isOpen : Bool) (w : Nat) (i : InSlot) : Prop :=
  (i.state = .empty → InCleared i) ∧ (isOpen = false → i.state = .empty) ∧ WindowOk w i

theorem rolloverOk_iff {ch : Channel} (x : Letter) : RolloverOk ch ↔
    ¬ (inService (ch.outSlot x) ∧ inService (ch.outSlot x.other)) ∧ InPairOk (ch.inSlot x) (ch.inSlot x.other) := by
  have hboth : ∀ P : Letter → Prop, (∀ y, P y) ↔ P .a ∧ P .b := fun P => ⟨fun h => ⟨h .a, h .b⟩, fun h y => by cases y; exacts [h.1, h.2]⟩
  cases x <;> simp only [RolloverOk, InPairOk, hboth, Channel.outSlot, Channel.inSlot, Letter.other]
  · tauto
  · rw [and_comm (a := inService ch.outA), and_comm (a := ch.inA.state = .current), ne_comm (a := ch.inA.epoch)]
    tauto

theorem slotsOk_iff {ch : Channel} (x : Letter) : SlotsOk ch ↔
    (OutOk (ch.outSlot x) ∧ OutOk (ch.outSlot x.other)) ∧
    InOk ch.isOpen ch.config.window (ch.inSlot x) ∧ InOk ch.isOpen ch.config.window (ch.inSlot x.other) := by
  have hboth : ∀ P : Letter → Prop, (∀ y, P y) ↔ P x ∧ P x.other := fun P =>
    ⟨fun h => ⟨h x, h x.other⟩, fun h y => by cases x <;> cases y; exacts [h.1, h.2, h.2, h.1]⟩
  simp only [SlotsOk, OutOk, InOk, hboth]
  tauto

theorem slotsEmpty_iff {ch : Channel} (x : Letter) : SlotsEmpty ch ↔
    ((ch.outSlot x).state = .empty ∧ (ch.inSlot x).state = .empty) ∧ (ch.outSlot x.other).state = .empty ∧ (ch.inSlot x.other).state = .empty :=
  ⟨fun h => ⟨h x, h x.other⟩, fun h y => by cases x <;> cases y; exacts [h.1, h.2, h.2, h.1]⟩

/-! ### What an operation on a record keeps -/

/-- From record `ch` to `d` every condition that held still holds. -/
structure ChanKeeps (ch d : Channel) : Prop where
  rollover : RolloverOk ch → RolloverOk d
  slots : SlotsOk ch → SlotsOk d
  empty : SlotsEmpty ch → SlotsEmpty d
  isOpen : ch.isOpen = true → d.isOpen = true

theorem ChanKeeps.refl (ch : Channel) : ChanKeeps ch ch := ⟨id, id, id, id⟩

theorem ChanKeeps.trans {a b c : Channel} (h : ChanKeeps a b) (k : ChanKeeps b c) : ChanKeeps a c :=
  ⟨k.rollover ∘ h.rollover, k.slots ∘ h.slots, k.empty ∘ h.empty, k.isOpen ∘ h.isOpen⟩

/-- A record with the same slots under the same window that stays OPEN or CLOSED as it was. -/
theorem ChanKeeps.of_slots_eq {ch d : Channel} (hout : ∀ x, d.outSlot x = ch.outSlot x) (hin : ∀ x, d.inSlot x = ch.inSlot x)
    (hopen : d.isOpen = ch.isOpen) (hw : d.config.window = ch.config.window) : ChanKeeps ch d where
  rollover := by rw [rolloverOk_iff .a, rolloverOk_iff .a]; simp only [hout, hin]; exact id
  slots := by rw [slotsOk_iff .a, slotsOk_iff .a]; simp only [hout, hin, hopen, hw]; exact id
  empty := by rw [slotsEmpty_iff .a, slotsEmpty_iff .a]; simp only [hout, hin]; exact id
  isOpen := by rw [hopen]; exact id

theorem ChanKeeps.count (ch : Channel) (c : ChanCtr) (k : Nat) : ChanKeeps ch (ch.count c k) :=
  .of_slots_eq (fun _ => Channel.outSlot_count ..) (fun _ => Channel.inSlot_count ..) rfl rfl

theorem ChanKeeps.schedule (ch : Channel) (t : Option Time) : ChanKeeps ch { ch with schedule := t } :=
  .of_slots_eq (fun x => by cases x <;> rfl) (fun x => by cases x <;> rfl) rfl rfl

/-- An outbound slot written anew: in service only where the other is not, cleared when EMPTY. -/
theorem ChanKeeps.setOut {ch : Channel} {x : Letter} {o : OutSlot}
    (hserv : ¬ (inService (ch.outSlot x) ∧ inService (ch.outSlot x.other)) → inService o → ¬ inService (ch.outSlot x.other))
    (hok : OutOk (ch.outSlot x) → OutOk o) (hempty : (ch.outSlot x).state = .empty → o.state = .empty) : ChanKeeps ch (ch.setOut x o) where
  rollover := by
    rw [rolloverOk_iff x, rolloverOk_iff x]
    simp only [Channel.outSlot_setOut, Channel.inSlot_setOut, if_true, Letter.other_ne, if_false]
    exact fun h => ⟨fun k => hserv h.1 k.1 k.2, h.2⟩
  slots := by
    rw [slotsOk_iff x, slotsOk_iff x]
    simp only [Channel.outSlot_setOut, Channel.inSlot_setOut, Channel.setOut_isOpen, Channel.setOut_config, if_true, Letter.other_ne, if_false]
    exact fun h => ⟨⟨hok h.1.1, h.1.2⟩, h.2⟩
  empty := by
    rw [slotsEmpty_iff x, slotsEmpty_iff x]
    simp only [Channel.outSlot_setOut, Channel.inSlot_setOut, if_true, Letter.other_ne, if_false]
    exact fun h => ⟨⟨hempty h.1.1, h.1.2⟩, h.2⟩
  isOpen := by rw [Channel.setOut_isOpen]; exact id

/-- An inbound slot written anew, as the other stands. -/
theorem ChanKeeps.setIn {ch : Channel} {x : Letter} {i : InSlot}
    (hpair : InPairOk (ch.inSlot x) (ch.inSlot x.other) → InPairOk i (ch.inSlot x.other))
    (hok : InOk ch.isOpen ch.config.window (ch.inSlot x) → InOk ch.isOpen ch.config.window i)
    (hempty : (ch.inSlot x).state = .empty → i.state = .empty) : ChanKeeps ch (ch.setIn x i) where
  rollover := by
    rw [rolloverOk_iff x, rolloverOk_iff x]
    simp only [Channel.outSlot_setIn, Channel.inSlot_setIn, if_true, Letter.other_ne, if_false]
    exact fun h => ⟨h.1, hpair h.2⟩
  slots := by
    rw [slotsOk_iff x, slotsOk_iff x]
    simp only [Channel.outSlot_setIn, Channel.inSlot_setIn, Channel.setIn_isOpen, Channel.setIn_config, if_true, Letter.other_ne, if_false]
    exact fun h => ⟨h.1, hok h.2.1, h.2.2⟩
  empty := by
    rw [slotsEmpty_iff x, slotsEmpty_iff x]
    simp only [Channel.outSlot_setIn, Channel.inSlot_setIn, if_true, Letter.other_ne, if_false]
    exact fun h => ⟨⟨h.1.1, hempty h.1.2⟩, h.2⟩
  isOpen := by rw [Channel.setIn_isOpen]; exact id

/-! ### Slots that become EMPTY (R24) -/

theorem outOk_of_ne_empty {o : OutSlot} (h : o.state ≠ .empty) : OutOk o := fun e => absurd e h

theorem outCleared_emptyOut (o : OutSlot) : OutCleared (emptyOut o) := ⟨rfl, rfl, rfl, rfl, rfl, rfl, rfl, rfl⟩

theorem inCleared_emptyIn (i : InSlot) : InCleared (emptyIn i) := ⟨rfl, rfl, rfl, rfl, rfl, rfl, rfl, rfl, rfl⟩

theorem windowOk_nil {w : Nat} {i : InSlot} (h : i.marks = []) : WindowOk w i := by simp [WindowOk, h]

theorem inOk_emptyIn (isOpen : Bool) (w : Nat) (i : InSlot) : InOk isOpen w (emptyIn i) := ⟨fun _ => inCleared_emptyIn i, fun _ => rfl, windowOk_nil rfl⟩

theorem not_inService_emptyOut (o : OutSlot) : ¬ inService (emptyOut o) := by simp [inService, emptyOut]

theorem ChanKeeps.setOut_emptyOut (ch : Channel) (x : Letter) : ChanKeeps ch (ch.setOut x (emptyOut (ch.outSlot x))) :=
  .setOut (fun _ h => absurd h (not_inService_emptyOut _)) (fun _ _ => outCleared_emptyOut _) fun _ => rfl

/-- An inbound slot may become EMPTY where no slot fades beside it as CURRENT (R29, R103). -/
theorem ChanKeeps.setIn_emptyIn {ch : Channel} {x : Letter} (h : (ch.inSlot x).state ≠ .current ∨ (ch.inSlot x.other).state ≠ .fading) :
    ChanKeeps ch (ch.setIn x (emptyIn (ch.inSlot x))) := by
  refine .setIn (fun hp => ?_) (fun _ => inOk_emptyIn ..) fun _ => rfl
  obtain ⟨-, -, hfade, -⟩ := hp
  refine ⟨by simp [emptyIn], by simp [emptyIn], fun hf => ?_, by simp [emptyIn]⟩
  rcases h with h | h
  · exact absurd (hfade hf) h
  · exact absurd hf h

theorem ChanKeeps.emptySlots (ch : Channel) : ChanKeeps ch (emptySlots ch) where
  rollover _ := by rw [rolloverOk_iff .a]; simp [InPairOk, inService, Channel.outSlot, Channel.inSlot, Letter.other, Machine.emptySlots, emptyOut, emptyIn]
  slots _ := by
    rw [slotsOk_iff .a]
    exact ⟨⟨fun _ => outCleared_emptyOut _, fun _ => outCleared_emptyOut _⟩, inOk_emptyIn .., inOk_emptyIn ..⟩
  empty _ := fun x => by cases x <;> exact ⟨rfl, rfl⟩
  isOpen := id

theorem slotsEmpty_emptySlots (ch : Channel) : SlotsEmpty (emptySlots ch) := fun x => by cases x <;> exact ⟨rfl, rfl⟩

/-! ### The outbound side: the switch, sequences, completions (R63, R94, R96) -/

/-- No slot is in service when `oldSlot` names none. -/
theorem not_inService_of_oldSlot_none {ch : Channel} (h : oldSlot ch = none) (x : Letter) : ¬ inService (ch.outSlot x) := by
  unfold oldSlot at h
  split at h
  · cases h
  · split at h
    · cases h
    · cases x <;> assumption

theorem not_inService_retire (o : OutSlot) : ¬ inService (retire o) := by
  unfold retire; split
  · simp [inService]
  · exact not_inService_emptyOut o

theorem outOk_retire (o : OutSlot) : OutOk (retire o) := by
  unfold retire; split
  · exact outOk_of_ne_empty (by simp)
  · exact fun _ => outCleared_emptyOut o

/-- The target of a switch that is made is LOADED (R93). -/
theorem switchTarget_loaded {ch : Channel} (h : switchMade ch = true) : (ch.outSlot (switchTarget ch)).state = .loaded := by
  unfold switchMade at h
  exact of_decide_eq_true (Bool.and_eq_true _ _ ▸ h).1

theorem ChanKeeps.makeSwitch {ch : Channel} (now : Time) (h : switchMade ch = true) : ChanKeeps ch (makeSwitch now ch) := by
  have hl := switchTarget_loaded h
  cases ho : oldSlot ch with
  | none =>
    have he : Machine.makeSwitch now ch =
        ch.setOut (switchTarget ch) { ch.outSlot (switchTarget ch) with state := .live, switchTime := some now } := by simp [Machine.makeSwitch, ho]
    rw [he]
    exact .setOut (fun _ _ => not_inService_of_oldSlot_none ho _) (fun _ => outOk_of_ne_empty (by simp)) (fun e => by simp [hl] at e)
  | some x =>
    have ht : switchTarget ch = x.other := by simp [switchTarget, ho]
    rw [ht] at hl
    have he : Machine.makeSwitch now ch = (ch.setOut x (retire (ch.outSlot x))).setOut x.other { ch.outSlot x.other with state := .live, switchTime := some now } := by
      simp [Machine.makeSwitch, ho, ht]
    have hx : (ch.outSlot x).state ≠ .empty := by rcases oldSlot_inService ho with e | e <;> simp [e]
    rw [he]
    refine ChanKeeps.trans (.setOut (fun _ k => absurd k (not_inService_retire _)) (fun _ => outOk_retire _) (fun e => absurd e hx))
      (.setOut (fun _ _ => ?_) (fun _ => outOk_of_ne_empty (by simp)) (fun e => ?_))
    · simpa using not_inService_retire (ch.outSlot x)
    · simp [hl] at e

theorem ChanKeeps.requestSwitch (now : Time) (ch : Channel) : ChanKeeps ch (requestSwitch now ch).1 := by
  unfold Machine.requestSwitch; split
  · exact .makeSwitch now ‹_›
  · exact .refl ch

/-- What a request for a sequence answers from: the slot in service, LIVE, with a next sequence (R62). -/
theorem sequenceAnswer_assigned {ch : Channel} {x : Letter} {slot : OutSlot} {n : Seq} (h : sequenceAnswer ch = .assigned x slot n) :
    ch.isOpen = true ∧ oldSlot ch = some x ∧ slot = ch.outSlot x ∧ (ch.outSlot x).state = .live ∧ (ch.outSlot x).next = .seq n := by
  unfold sequenceAnswer at h
  split at h
  · cases h
  · rename_i hopen
    split at h
    · cases h
    · rename_i y hy
      split at h
      · rename_i m hlive hnext
        obtain ⟨rfl, rfl, rfl⟩ := h
        exact ⟨by simpa using hopen, hy, rfl, hlive, hnext⟩
      · cases h

/-- A LIVE slot after an assignment, with or without its soft-limit event, is in service. -/
theorem ChanKeeps.setOut_live {ch : Channel} {x : Letter} {o : OutSlot} (hl : (ch.outSlot x).state = .live) (ho : inService o) :
    ChanKeeps ch (ch.setOut x o) := by
  refine .setOut (fun h _ k => h ⟨Or.inl hl, k⟩) (fun _ => outOk_of_ne_empty ?_) (fun e => by simp [hl] at e)
  rcases ho with e | e <;> simp [e]

theorem inService_takeSequence {o : OutSlot} (h : o.state = .live) (n : Seq) : inService (takeSequence o n) := by
  rw [takeSequence_live h]
  by_cases hn : n.toNat = 2 ^ 48 - 1
  · exact .inr (if_pos hn)
  · exact .inl (if_neg hn)

theorem ChanKeeps.assignFrom {ch : Channel} {x : Letter} (now : Time) (n : Seq) (hl : (ch.outSlot x).state = .live) :
    ChanKeeps ch (assignFrom now ch x n).1 := by
  unfold Machine.assignFrom
  simp only
  split
  · have hsoft : inService { takeSequence (ch.outSlot x) n with softHit := true } := inService_takeSequence hl n
    split
    · exact (ChanKeeps.setOut_live hl hsoft).trans (.requestSwitch now _)
    · exact .setOut_live hl hsoft
  · exact .setOut_live hl (inService_takeSequence hl n)

theorem ChanKeeps.completeOut (ch : Channel) (x : Letter) : ChanKeeps ch (ch.setOut x (completeOut (ch.outSlot x))) := by
  unfold Machine.completeOut
  simp only
  split
  · exact .setOut (fun _ h => absurd h (not_inService_emptyOut _)) (fun _ _ => outCleared_emptyOut _) fun _ => rfl
  · exact .setOut (fun h k j => h ⟨k, j⟩) id id

/-! ### The inbound side: in-flight counts, the window, promotion (R23, R81, R102) -/

/-- An in-flight count is no part of the conditions. -/
theorem ChanKeeps.setIn_inFlight (ch : Channel) (x : Letter) (n : Nat) : ChanKeeps ch (ch.setIn x { ch.inSlot x with inFlight := n }) :=
  .setIn id id id

theorem windowCtr_none_iff {v : WindowVerdict} : windowCtr v = none ↔ v = .fresh := by cases v <;> simp [windowCtr]

/-- A sequence that passes the window test and lies at or below the top lies within W of it (R80). -/
theorem lt_of_windowTest_fresh {w top q : Nat} {marks : List Nat} (h : windowTest w top marks q = .fresh) (hw : w ≠ 0) (hq : q ≤ top) : top < q + w := by
  unfold windowTest at h
  rw [if_neg hw, if_neg (by omega)] at h
  by_contra hlate
  rw [if_pos (by omega)] at h
  cases h

/-- The window update keeps the marks ascending and within W of the top (R81). -/
theorem windowOk_update {w q : Nat} {i : InSlot} (h : WindowOk w i) (hq : windowTest w i.top i.marks q = .fresh) :
    WindowOk w { i with top := (windowUpdate w i.top i.marks q).1, marks := (windowUpdate w i.top i.marks q).2 } := by
  obtain ⟨hsorted, hmarks⟩ := h
  unfold windowUpdate
  by_cases hw : w = 0
  · rw [if_pos hw]; exact windowOk_nil rfl
  · rw [if_neg hw]
    by_cases hnew : i.top < q
    · rw [if_pos hnew]
      generalize hkept : (if q - i.top ≥ w then [] else i.marks.filter (fun m => q < m + w)) = kept
      have hk : kept.Pairwise (· < ·) ∧ ∀ m ∈ kept, m ≤ i.top ∧ q < m + w := by
        subst hkept
        split
        · exact ⟨.nil, fun m hm => by cases hm⟩
        · refine ⟨hsorted.filter _, fun m hm => ?_⟩
          obtain ⟨hmem, hlt⟩ := List.mem_filter.1 hm
          exact ⟨(hmarks m hmem).1, of_decide_eq_true hlt⟩
      refine ⟨List.pairwise_append.2 ⟨hk.1, List.pairwise_singleton .., fun m hm y hy => ?_⟩, fun m hm => ?_⟩
      · rw [List.mem_singleton.1 hy]; have := (hk.2 m hm).1; omega
      · rcases List.mem_append.1 hm with hm | hm
        · have := hk.2 m hm; exact ⟨by simp only; omega, this.2⟩
        · rw [List.mem_singleton.1 hm]; exact ⟨le_rfl, by simp only; omega⟩
    · rw [if_neg hnew]
      refine ⟨insertMark_pairwise q _ hsorted, fun m hm => ?_⟩
      rcases (insertMark_mem q m _).1 hm with rfl | hm
      · exact ⟨Nat.le_of_not_lt hnew, lt_of_windowTest_fresh hq hw (Nat.le_of_not_lt hnew)⟩
      · exact hmarks m hm

/-- A frame that passes the final check is recorded in the window of a slot that holds a key (R81). -/
theorem ChanKeeps.setIn_window {ch : Channel} {x : Letter} {q : Nat} (hne : (ch.inSlot x).state ≠ .empty)
    (hq : windowTest ch.config.window (ch.inSlot x).top (ch.inSlot x).marks q = .fresh) :
    ChanKeeps ch (ch.setIn x { ch.inSlot x with
      top := (windowUpdate ch.config.window (ch.inSlot x).top (ch.inSlot x).marks q).1
      marks := (windowUpdate ch.config.window (ch.inSlot x).top (ch.inSlot x).marks q).2 }) :=
  .setIn id (fun h => ⟨fun e => absurd e hne, h.2.1, windowOk_update h.2.2 hq⟩) id

/-- The slot that a promotion sends away is FADING or EMPTY, its window no wider (R102, R103). -/
theorem fade_spec (now : Time) (grace : Nat) (i : InSlot) :
    ((fade now grace i).1 = emptyIn i) ∨
    ((fade now grace i).1.state = .fading ∧ (fade now grace i).1.epoch = i.epoch ∧ (fade now grace i).1.top = i.top ∧
      (fade now grace i).1.marks = i.marks) := by
  unfold fade; split
  · exact .inl rfl
  · exact .inr ⟨rfl, rfl, rfl, rfl⟩

/-- A promotion keeps the conditions: the PENDING slot becomes CURRENT as the CURRENT one beside it begins to fade (R102). -/
theorem ChanKeeps.promote (now : Time) (ch : Channel) (x : Letter) : ChanKeeps ch (promote now ch x).1 := by
  unfold Machine.promote
  by_cases hp : (ch.inSlot x).state = .pending
  · rw [if_pos hp]
    have hne : (ch.inSlot x).state ≠ .empty := by simp [hp]
    have hok : ∀ f : InSlot, f.state = .current → f.top = (ch.inSlot x).top → f.marks = (ch.inSlot x).marks →
        InOk ch.isOpen ch.config.window (ch.inSlot x) → InOk ch.isOpen ch.config.window f := by
      intro f hs ht hm ⟨_, hclosed, hwin⟩
      refine ⟨fun e => by simp [hs] at e, fun h => absurd (hclosed h) hne, ?_⟩
      rw [WindowOk, hm, ht]; exact hwin
    by_cases hc : (ch.inSlot x.other).state = .current
    · simp only [hc, if_true]
      refine ⟨?_, ?_, fun h => absurd (h x).2 hne, by simp⟩
      · rw [rolloverOk_iff x, rolloverOk_iff x]
        simp only [Channel.outSlot_setIn, Channel.inSlot_setIn, Letter.other_ne, Letter.ne_other, if_true, if_false]
        rintro ⟨hout, -, -, -, hepoch⟩
        refine ⟨hout, ?_⟩
        rcases fade_spec now ch.config.grace (ch.inSlot x.other) with he | ⟨hs, hep, -, -⟩
        · rw [he]; exact ⟨by simp [emptyIn], by simp, by simp [emptyIn], by simp [emptyIn]⟩
        · exact ⟨by simp [hs], by simp, by simp, fun _ _ => by rw [hep]; exact hepoch hne (by simp [hc])⟩
      · rw [slotsOk_iff x, slotsOk_iff x]
        simp only [Channel.outSlot_setIn, Channel.inSlot_setIn, Channel.setIn_isOpen, Channel.setIn_config, Letter.other_ne, Letter.ne_other, if_true, if_false]
        rintro ⟨hout, hx, hclear, hclosed, hwin⟩
        refine ⟨hout, hok _ rfl rfl rfl hx, ?_⟩
        rcases fade_spec now ch.config.grace (ch.inSlot x.other) with he | ⟨hs, -, ht, hm⟩
        · rw [he]; exact inOk_emptyIn ..
        · refine ⟨fun e => by simp [hs] at e, fun h => by simp [hclosed h] at hc, ?_⟩
          rw [WindowOk, hm, ht]; exact hwin
    · simp only [hc, if_false]
      refine .setIn (fun h => ?_) (hok _ rfl rfl rfl) (fun e => absurd e hne)
      obtain ⟨-, -, hfade, hepoch⟩ := h
      exact ⟨fun k => hc k.2, by simp, fun _ => rfl, fun _ h2 => hepoch hne h2⟩
  · rw [if_neg hp]; exact .refl ch

end Sys2Proof.Kept
end

section
/-! What the shared operations on the state keep: the conditions of every channel, queue and line, the identity store, and that no request is in hand
while the part is BLOCKED. -/

namespace Sys2Proof.Kept
open Sys2Proof.Machine Sys2Proof.Safety

/-! ### The relation -/

/-- The part is not BLOCKED, or the runner holds no request. -/
def RunnerOk (s : State) : Prop := blocked s = false ∨ s.agent.run = none

/-- The conditions that held of `s` hold of `t`. -/
structure KeepsConditions (s t : State) : Prop where
  rollover : RolloverInv s → RolloverInv t
  slots : SlotsInv s → SlotsInv t
  capacity : CapacityInv s → CapacityInv t
  lookups : LookupsInOrder s → LookupsInOrder t
  runner : RunnerOk s → RunnerOk t

/-- From `s` to `t` the conditions are kept, the store is not written, and no burn begins on a locked part. -/
structure Keeps (s t : State) : Prop extends KeepsConditions s t where
  store : t.store = s.store
  burn : lockBit s = true → s.burn = none → t.burn = none

theorem KeepsConditions.trans {s t u : State} (h : KeepsConditions s t) (k : KeepsConditions t u) : KeepsConditions s u :=
  ⟨k.rollover ∘ h.rollover, k.slots ∘ h.slots, k.capacity ∘ h.capacity, k.lookups ∘ h.lookups, k.runner ∘ h.runner⟩

theorem Keeps.refl (s : State) : Keeps s s := ⟨⟨id, id, id, id, id⟩, rfl, fun _ => id⟩

theorem Keeps.trans {s t u : State} (h : Keeps s t) (k : Keeps t u) : Keeps s u where
  toKeepsConditions := h.toKeepsConditions.trans k.toKeepsConditions
  store := k.store.trans h.store
  burn hl hb := k.burn (by rwa [lockBit, h.store]) (h.burn hl hb)

/-! ### One record written -/

/-- The queues of a port are within their capacity (R107, R116). -/
def PortCapacity (p : Port) : Prop := totalBytes (p.buffer.map (·.bytes)) ≤ 524288 ∧ totalBytes (p.queue.map (·.bytes)) ≤ 131072

/-- The queues of a lane are within their capacity, and one beacon at most waits (R123, R143). -/
def LaneCapacity (l : Lane) : Prop :=
  totalBytes l.returnQueue ≤ 16384 ∧ l.control.length ≤ 4 ∧ (l.control.filter (fun f => f.kind == .beacon)).length ≤ 1

/-- The lookups of a port's line are in the order of its frames, none on a bank later than `now` (R44). -/
def OutLineInOrder (now : Nat) (l : List OutItem) : Prop :=
  l.Pairwise (fun a b => ∀ q r, a.stage = .lookup q → b.stage = .lookup r → q.gen ≤ r.gen) ∧ ∀ a ∈ l, ∀ r, a.stage = .lookup r → r.gen ≤ now

theorem capacityInv_iff (s : State) :
    CapacityInv s ↔ (∀ n, PortCapacity (s.port n)) ∧ (∀ k, LaneCapacity (s.lane k)) ∧ s.agent.queue.length ≤ 8 := Iff.rfl

theorem lookupsInOrder_iff (s : State) :
    LookupsInOrder s ↔ (∀ k, LineInOrder s.bankGen (s.lane k).inLine) ∧ ∀ n, OutLineInOrder s.bankGen (s.port n).outLine := Iff.rfl

/-- A channel written, what its record keeps given for the conditions one by one. -/
theorem Keeps.updChan_of {s : State} {c : Chan} {f : Channel → Channel} (hroll : RolloverOk (s.chan c) → RolloverOk (f (s.chan c)))
    (hslots : SlotsOk (s.chan c) → SlotsOk (f (s.chan c)))
    (hempty : c = 0 → blocked s = true ∨ s.pins.zeroizeHigh = false → SlotsEmpty (s.chan c) → SlotsEmpty (f (s.chan c)))
    (hopen : c = 0 → (s.chan c).isOpen = true → (f (s.chan c)).isOpen = true) : Keeps s (s.updChan c f) where
  rollover := by
    rintro ⟨hall, hzero⟩
    refine ⟨fun d => ?_, fun hb => ?_⟩
    · rw [State.updChan_chan]; split
      · rename_i h; subst h; exact hroll (hall _)
      · exact hall d
    · rw [State.updChan_chan]; split
      · rename_i h; subst h; exact hempty rfl hb (hzero hb)
      · exact hzero hb
  slots := by
    rintro ⟨hzero, hall⟩
    refine ⟨?_, fun d => ?_⟩
    · rw [State.updChan_chan]; split
      · rename_i h; subst h; exact hopen rfl hzero
      · exact hzero
    · rw [State.updChan_chan]; split
      · rename_i h; subst h; exact hslots (hall _)
      · exact hall d
  capacity := id
  lookups := id
  runner := id
  store := rfl
  burn _ := id

theorem Keeps.updChan {s : State} {c : Chan} {f : Channel → Channel} (h : ChanKeeps (s.chan c) (f (s.chan c))) : Keeps s (s.updChan c f) :=
  .updChan_of h.rollover h.slots (fun _ _ => h.empty) fun _ => h.isOpen

theorem Keeps.updPort {s : State} {n : PortId} {f : Port → Port} (hcap : PortCapacity (s.port n) → PortCapacity (f (s.port n)))
    (hline : OutLineInOrder s.bankGen (s.port n).outLine → OutLineInOrder s.bankGen (f (s.port n)).outLine) : Keeps s (s.updPort n f) where
  rollover := id
  slots := id
  capacity := by
    rintro ⟨hports, hrest⟩
    refine ⟨fun m => ?_, hrest⟩
    rw [State.updPort_port]; split
    · rename_i h; subst h; exact hcap (hports _)
    · exact hports m
  lookups := by
    rintro ⟨hlanes, hports⟩
    refine ⟨hlanes, fun m => ?_⟩
    rw [State.updPort_port]; split
    · rename_i h; subst h; exact hline (hports _)
    · exact hports m
  runner := id
  store := rfl
  burn _ := id

theorem Keeps.updLane {s : State} {k : LaneId} {f : Lane → Lane} (hcap : LaneCapacity (s.lane k) → LaneCapacity (f (s.lane k)))
    (hline : LineInOrder s.bankGen (s.lane k).inLine → LineInOrder s.bankGen (f (s.lane k)).inLine) : Keeps s (s.updLane k f) where
  rollover := id
  slots := id
  capacity := by
    rintro ⟨hports, hlanes, hrest⟩
    refine ⟨hports, fun j => ?_, hrest⟩
    rw [State.updLane_lane]; split
    · rename_i h; subst h; exact hcap (hlanes _)
    · exact hlanes j
  lookups := by
    rintro ⟨hlanes, hports⟩
    refine ⟨fun j => ?_, hports⟩
    rw [State.updLane_lane]; split
    · rename_i h; subst h; exact hline (hlanes _)
    · exact hlanes j
  runner := id
  store := rfl
  burn _ := id

theorem Keeps.updAgent {s : State} {f : Agent → Agent} (hqueue : s.agent.queue.length ≤ 8 → (f s.agent).queue.length ≤ 8)
    (hrun : RunnerOk s → RunnerOk (s.updAgent f)) : Keeps s (s.updAgent f) where
  rollover := id
  slots := id
  capacity h := ⟨h.1, h.2.1, hqueue h.2.2⟩
  lookups := id
  runner := hrun
  store := rfl
  burn _ := id

theorem Keeps.updProt (s : State) (f : Protection → Protection) : Keeps s (s.updProt f) := ⟨⟨id, id, id, id, id⟩, rfl, fun _ => id⟩

/-- What protection switching moves is no part of the conditions. -/
theorem Keeps.switched {s t : State} (h : Switched s t) : Keeps s t := by
  obtain ⟨hlanes, -, ⟨d, hagent⟩, hrest⟩ := h
  have hlane : ∀ k, (t.lane k).returnQueue = (s.lane k).returnQueue ∧ (t.lane k).control = (s.lane k).control ∧ (t.lane k).inLine = (s.lane k).inLine :=
    fun k => by rw [(hlanes k).1]; exact ⟨rfl, rfl, rfl⟩
  have hchan : t.channels = s.channels := by rw [hrest]
  have hpins : t.pins = s.pins := by rw [hrest]
  have hpart : t.part = s.part := by rw [hrest]
  have hports : t.ports = s.ports := by rw [hrest]
  have hgen : t.bankGen = s.bankGen := by rw [hrest]
  have hburn : t.burn = s.burn := by rw [hrest]
  refine ⟨⟨?_, ?_, ?_, ?_, ?_⟩, by rw [hrest], fun _ hb => hburn.trans hb⟩
  · simp only [RolloverInv, State.chan, blocked, hchan, hpins, hpart]; exact id
  · simp only [SlotsInv, State.chan, hchan]; exact id
  · simp only [CapacityInv, State.port, hports, hlane, hagent]; exact id
  · simp only [LookupsInOrder, State.port, hports, hlane, hgen]; exact id
  · simp only [RunnerOk, blocked, hpart, hagent]; exact id

/-! ### Counts and reports -/

theorem Keeps.countChan (s : State) (c : Chan) (ctr : ChanCtr) (k : Nat) : Keeps s (s.countChan c ctr k) := .updChan (.count ..)
theorem Keeps.countPort (s : State) (n : PortId) (ctr : PortCtr) (k : Nat) : Keeps s (s.countPort n ctr k) := .updPort id id
theorem Keeps.countLane (s : State) (k : LaneId) (ctr : LaneCtr) (d : Nat) : Keeps s (s.countLane k ctr d) := .updLane id id
theorem Keeps.countAgent (s : State) (ctr : AgentCtr) : Keeps s (s.countAgent ctr) := .updAgent id id
theorem Keeps.countAtLane (p : Place) (ctr : LaneCtr) (s : State) : Keeps s (countAtLane p ctr s) := by
  cases p with
  | port n => exact .refl s
  | lane k => exact .countLane ..
theorem Keeps.countHit (r : Lookup) (s : State) : Keeps s (countHit r s) := by
  unfold Machine.countHit
  split
  · exact .refl s
  · split
    · exact ⟨⟨id, id, id, id, id⟩, rfl, fun _ => id⟩
    · exact .refl s
theorem Keeps.reportChan (c : Chan) (ks : KindSet) (s : State) : Keeps s (reportChan c ks s) := by
  rw [reportChan_eq]; exact .updAgent id id
theorem Keeps.reportDevice (k : Kind) (s : State) : Keeps s (reportDevice k s) := .updAgent id id
theorem Keeps.countVerified (p : Place) (c : Chan) (octets : Nat) (own : Bool) (s : State) : Keeps s (countVerified p c octets own s) := by
  unfold Machine.countVerified; split
  · exact .countAtLane ..
  · exact (Keeps.countChan ..).trans (.countChan ..)

/-! ### Cold reset, zeroize and the load of channel 0 (R37, R169, R171) -/

theorem channel_cold_conditions (b : Bool) : RolloverOk (Channel.cold b) ∧ SlotsOk (Channel.cold b) ∧ SlotsEmpty (Channel.cold b) := by
  have hwin : ∀ w, WindowOk w InSlot.cold := fun w => windowOk_nil rfl
  refine ⟨?_, ?_, fun x => by cases x <;> exact ⟨rfl, rfl⟩⟩
  · rw [rolloverOk_iff .a]; simp [InPairOk, inService, Channel.outSlot, Channel.inSlot, Letter.other, Channel.cold, OutSlot.cold, InSlot.cold]
  · rw [slotsOk_iff .a]
    have hout : OutOk OutSlot.cold := fun _ => ⟨rfl, rfl, rfl, rfl, rfl, rfl, rfl, rfl⟩
    have hin : ∀ w, InOk b w InSlot.cold := fun w => ⟨fun _ => ⟨rfl, rfl, rfl, rfl, rfl, rfl, rfl, rfl, rfl⟩, fun _ => rfl, hwin w⟩
    exact ⟨⟨hout, hout⟩, hin _, hin _⟩

/-- What a cold reset leaves meets every condition (R36, R169). -/
theorem conditions_of_isCold {pins : Pins} {s t : State} (h : IsCold pins s t) :
    RolloverInv t ∧ SlotsInv t ∧ CapacityInv t ∧ LookupsInOrder t ∧ RunnerOk t := by
  obtain ⟨-, -, -, -, -, -, -, hchan, -, -, -, -, hport, hlane, -, hagent⟩ := h
  refine ⟨⟨fun c => ?_, fun _ => ?_⟩, ⟨?_, fun c => ?_⟩, ⟨fun n => ?_, fun k => ?_, ?_⟩, ⟨fun k => ?_, fun n => ?_⟩, .inr ?_⟩
  · rw [hchan]; exact (channel_cold_conditions _).1
  · rw [hchan]; exact (channel_cold_conditions _).2.2
  · rw [hchan]; rfl
  · rw [hchan]; exact (channel_cold_conditions _).2.1
  · rw [hport]; decide
  · rw [hlane]; exact ⟨Nat.zero_le _, Nat.zero_le _, Nat.zero_le _⟩
  · rw [hagent]; exact Nat.zero_le _
  · rw [hlane]; exact ⟨.nil, fun a ha => by cases ha⟩
  · rw [hport]; exact ⟨.nil, fun a ha => by cases ha⟩
  · rw [hagent]; rfl

theorem Keeps.of_isCold {pins : Pins} {s t : State} (h : IsCold pins s t) : Keeps s t := by
  obtain ⟨hr, hs, hc, hl, hu⟩ := conditions_of_isCold h
  obtain ⟨-, hstore, -, -, hburn, -⟩ := h
  exact ⟨⟨fun _ => hr, fun _ => hs, fun _ => hc, fun _ => hl, fun _ => hu⟩, hstore, fun _ _ => hburn⟩

theorem Keeps.coldReset (s : State) : Keeps s (coldReset s) := .of_isCold (coldReset_isCold s.pins s rfl)

theorem zeroizeTable_chan (s : State) (c : Chan) : (zeroizeTable s).chan c = { emptySlots (s.chan c) with schedule := none } :=
  mapVec_get _ s.channels c

theorem slotsEmpty_zeroizeTable (s : State) (c : Chan) : SlotsEmpty ((zeroizeTable s).chan c) := by
  rw [zeroizeTable_chan]; exact (ChanKeeps.schedule _ none).empty (slotsEmpty_emptySlots _)

theorem Keeps.zeroizeTable (s : State) : Keeps s (zeroizeTable s) := by
  have hkeep : ∀ c, ChanKeeps (s.chan c) ((Machine.zeroizeTable s).chan c) := fun c => by
    rw [zeroizeTable_chan]; exact (ChanKeeps.emptySlots _).trans (.schedule _ none)
  refine ⟨⟨fun h => ⟨fun c => (hkeep c).rollover (h.1 c), fun _ => slotsEmpty_zeroizeTable s 0⟩,
    fun h => ⟨(hkeep 0).isOpen h.1, fun c => (hkeep c).slots (h.2 c)⟩, id, id, id⟩, rfl, fun _ => id⟩

/-- Channel 0 is loaded into slots that are EMPTY, on a part that is not BLOCKED (R171, R174 to R176). -/
theorem Keeps.loadIfLocked {s s1 : State} (h : Keeps s s1) (hempty : RolloverInv s → SlotsEmpty (s1.chan 0)) (hb : blocked s1 = false) :
    Keeps s (loadIfLocked s1) := by
  unfold Machine.loadIfLocked
  split
  · rename_i hload
    have hz : s1.pins.zeroizeHigh = true := (Bool.and_eq_true _ _ ▸ hload).2
    have hzero : Loaded0 s1 (s1.chan 0) ((loadChannel0 s1).chan 0) := loadChannel0_chan_zero s1
    rw [Loaded0] at hzero
    have hne : ∀ c, c ≠ 0 → (loadChannel0 s1).chan c = s1.chan c := fun c => loadChannel0_chan_ne s1 c
    refine ⟨⟨fun hs => ⟨fun c => ?_, fun hbad => ?_⟩, fun hs => ⟨?_, fun c => ?_⟩, h.capacity, h.lookups, h.runner⟩, h.store, h.burn⟩
    · by_cases hc : c = 0
      · subst hc
        have he := hempty hs
        have hb := he .b
        rw [hzero, rolloverOk_iff .a]
        simp only [Channel.outSlot, Channel.inSlot, Letter.other] at hb ⊢
        simp [InPairOk, inService, hb.1, hb.2]
      · rw [hne c hc]; exact (h.rollover hs).1 c
    · have hbad : blocked s1 = true ∨ s1.pins.zeroizeHigh = false := hbad
      rcases hbad with k | k
      · rw [hb] at k; cases k
      · rw [hz] at k; cases k
    · rw [hzero]; exact (h.slots hs).1
    · by_cases hc : c = 0
      · subst hc
        have hopen := (h.slots hs).1
        have hok := (h.slots hs).2 0
        rw [slotsOk_iff .a] at hok
        obtain ⟨⟨-, hout⟩, -, hin⟩ := hok
        rw [hzero, slotsOk_iff .a]
        exact ⟨⟨outOk_of_ne_empty (by simp [Channel.outSlot]), hout⟩,
          ⟨by simp [Channel.inSlot], by simp [hopen], windowOk_nil rfl⟩, hin⟩
      · rw [hne c hc]; exact (h.slots hs).2 c
  · exact h

/-! ### Sequences and completions (R63, R67) -/

theorem Keeps.assignSequence (c : Chan) (o : Origin) (s : State) : Keeps s (assignSequence c o s).2 := by
  unfold Machine.assignSequence
  split
  · exact .refl s
  · rename_i x slot n h
    obtain ⟨-, -, -, hlive, -⟩ := sequenceAnswer_assigned h
    exact (Keeps.updChan (f := fun _ => _) (.assignFrom s.time n hlive)).trans (.reportChan ..)

theorem Keeps.slotCompleted (w : Work) (s : State) : Keeps s (slotCompleted w s) := .updChan (.completeOut ..)

theorem Keeps.verifyCompleted (w : Work) (s : State) : Keeps s (verifyCompleted w s) := .updChan (.setIn_inFlight ..)

/-! ### The sender (R160, R161, R167) -/

theorem Keeps.takeMessage {place : Place} {kind : HandKind} {da : Addr} {msg : List Byte} {s t : State}
    (h : takeMessage place kind da msg s = some t) : Keeps s t := by
  unfold Machine.takeMessage at h
  split at h
  · have hk := Keeps.assignSequence 0 .agent s
    split at h
    · cases h
    · rename_i w epoch s1 heq
      rw [heq] at hk
      cases h
      exact hk.trans (.updAgent id id)
  · cases h; exact .updAgent id id

theorem Keeps.loseReply (final : Bool) (s : State) : Keeps s (loseReply final s) := by
  unfold Machine.loseReply
  simp only
  split
  · exact (Keeps.countAgent ..).trans (.coldReset _)
  · exact .countAgent ..

theorem Keeps.reportChans (entries : List (Chan × KindSet)) (s : State) : Keeps s (entries.foldl (fun t e => Machine.reportChan e.1 e.2 t) s) := by
  induction entries generalizing s with
  | nil => exact .refl s
  | cons e entries ih => exact (Keeps.reportChan ..).trans (ih _)

theorem Keeps.loseNotice (devices : KindSet) (entries : List (Chan × KindSet)) (s : State) : Keeps s (loseNotice devices entries s) :=
  ((Keeps.countAgent s .noticeLost).trans (.updAgent id id)).trans (.reportChans entries _)

theorem Keeps.loseHand (kind : HandKind) (s : State) : Keeps s (loseHand kind s) := by
  have hdrop : Keeps s (s.updAgent fun a => { a with hand := none }) := .updAgent id id
  cases kind with
  | reply final => exact hdrop.trans (.loseReply ..)
  | notice devices entries => exact hdrop.trans (.loseNotice ..)

theorem Keeps.takeReply (s : State) : Keeps s (takeReply s) := by
  unfold Machine.takeReply
  split
  · rename_i r _ _
    have hclear : Keeps s (s.updAgent fun a => { a with reply := none }) := .updAgent id id
    simp only
    split
    · exact hclear.trans (.takeMessage ‹_›)
    · exact hclear.trans (.loseReply ..)
  · exact .refl s

theorem Keeps.buildNotice (s : State) : Keeps s (buildNotice s) := by
  unfold Machine.buildNotice
  split
  · split
    · exact .refl s
    · simp only
      split
      · exact Keeps.trans (.updAgent id id) (.takeMessage ‹_›)
      · exact Keeps.trans (.updAgent id id) (.loseNotice ..)
  · exact .refl s

theorem Keeps.settle (s : State) : Keeps s (settle s) := (Keeps.takeReply s).trans (.buildNotice _)

/-! ### The intake (R156, R157) -/

theorem Keeps.takeRequest (place : Place) (sa : Addr) (clear : Bool) (msg : List Byte) (s : State) : Keeps s (takeRequest place sa clear msg s) := by
  unfold Machine.takeRequest
  have hdest : Keeps s ((s.countAgent .requestsTaken).updAgent fun a => { a with dest := some (place, sa) }) :=
    (Keeps.countAgent ..).trans (.updAgent id id)
  simp only
  split
  · exact hdest.trans (.countAgent ..)
  · split
    · rename_i hroom
      refine hdest.trans (.updAgent (fun _ => ?_) id)
      rw [List.length_append]; exact hroom
    · exact hdest.trans ((Keeps.countAgent ..).trans (.reportDevice ..))

theorem Keeps.intakeClear (place : Place) (f : Frame) (s : State) : Keeps s (intakeClear place f s) := by
  unfold Machine.intakeClear
  split
  · exact .countAgent ..
  · split
    · exact .countAgent ..
    · exact .takeRequest ..

/-! ### Protection switching and the lane unit (R127 to R148) -/

theorem Keeps.runArbiter (s : State) : Keeps s (runArbiter s) := .switched (runArbiter_switched s).1

theorem Keeps.setLaneState (k : LaneId) (st : LaneState) (s : State) : Keeps s (setLaneState k st s) :=
  (Keeps.updLane id id).trans (.switched (setLaneState_switched k st s))

theorem Keeps.setLoopMode (k : LaneId) (m : LoopMode) (s : State) : Keeps s (setLoopMode k m s) :=
  (Keeps.updLane id id).trans (.switched (setLoopMode_switched k m s))

theorem Keeps.restartContinuity (k : LaneId) (s : State) : Keeps s (restartContinuity k s) := .updLane id id

theorem Keeps.monitorBeacon (k : LaneId) (own : Bool) (s : State) : Keeps s (monitorBeacon k own s) := by
  unfold Machine.monitorBeacon
  simp only
  split
  · exact (Keeps.restartContinuity k s).trans ((Keeps.updLane id id).trans (.setLaneState ..))
  · split
    · exact (Keeps.restartContinuity k s).trans ((Keeps.updLane id id).trans (.setLaneState ..))
    · exact (Keeps.restartContinuity k s).trans (.updLane id id)

theorem Keeps.beginLine (k : LaneId) (s : State) : Keeps s (beginLine k s) := (Keeps.setLoopMode ..).trans (.reportDevice ..)

theorem laneCapacity_clearReturn (l : Lane) (h : LaneCapacity l) : LaneCapacity { l with returnQueue := [] } := ⟨Nat.zero_le _, h.2⟩

theorem Keeps.endLine (k : LaneId) (s : State) : Keeps s (endLine k s) :=
  (Keeps.updLane (laneCapacity_clearReturn _) id).trans ((Keeps.setLoopMode ..).trans (.reportDevice ..))

theorem Keeps.beginCipher (k : LaneId) (s : State) : Keeps s (beginCipher k s) := (Keeps.updLane id id).trans (.setLoopMode ..)

theorem Keeps.endCipher (k : LaneId) (s : State) : Keeps s (endCipher k s) := by
  unfold Machine.endCipher
  simp only
  split
  · exact .setLoopMode ..
  · exact (Keeps.restartContinuity ..).trans (.setLoopMode ..)

theorem Keeps.judgeLoop (k : LaneId) (own : Bool) (f : LoopField) (s : State) : Keeps s (judgeLoop k own f s) := by
  unfold Machine.judgeLoop
  simp only
  split
  · exact .updLane id id
  · split
    · split
      · exact (Keeps.updLane id id).trans (.beginLine ..)
      · exact (Keeps.updLane id id).trans (.endLine ..)
      · exact .updLane id id
    · exact .updLane id id

theorem Keeps.noteBeacon (k : LaneId) (own : Bool) (c : BeaconContent) (s : State) : Keeps s (noteBeacon k own c s) := by
  unfold Machine.noteBeacon
  split
  · exact .countLane ..
  · exact (Keeps.updLane id id).trans (.countLane ..)

theorem Keeps.controllerBeacon (k : LaneId) (c : BeaconContent) (s : State) : Keeps s (controllerBeacon k c s) := by
  unfold Machine.controllerBeacon
  have hfar : Keeps s (if s.prot.farFail = c.farFail then s else Machine.runArbiter (s.updProt fun p => { p with farFail := c.farFail })) := by
    split
    · exact .refl s
    · exact (Keeps.updProt ..).trans (.runArbiter _)
  refine hfar.trans ?_
  generalize (if s.prot.farFail = c.farFail then s else Machine.runArbiter (s.updProt fun p => { p with farFail := c.farFail })) = s1
  simp only
  split
  · split
    · exact .switched (setSteering_switched ..)
    · exact .switched (judgeAdoption_switched ..)
    · exact .refl _
  · exact .refl _

theorem Keeps.ownBeacon (k : LaneId) (s : State) : Keeps s (ownBeacon k s) := by
  unfold Machine.ownBeacon; split
  · exact .updProt ..
  · exact .refl s

theorem Keeps.receiveBeacon (k : LaneId) (payload : List Byte) (origin own : Bool) (s : State) : Keeps s (receiveBeacon k payload origin own s) := by
  unfold Machine.receiveBeacon
  split
  · exact .countLane ..
  · rename_i c _
    have htaken : Keeps s (Machine.noteBeacon k own c (Machine.judgeLoop k own c.loop (Machine.monitorBeacon k own s))) :=
      (Keeps.monitorBeacon ..).trans ((Keeps.judgeLoop ..).trans (.noteBeacon ..))
    split
    · exact .countLane ..
    · split
      · exact (Keeps.judgeLoop ..).trans (.noteBeacon ..)
      · simp only
        split
        · exact htaken.trans (.ownBeacon ..)
        · exact htaken.trans (.controllerBeacon ..)

theorem Keeps.judgeTest (k : LaneId) (good : Bool) (s : State) : Keeps s (judgeTest k good s) := by
  unfold Machine.judgeTest
  have hcount := Keeps.countLane s k (if good then .testGood else .testBad) 1
  generalize s.countLane k (if good then .testGood else .testBad) = s1 at hcount ⊢
  simp only
  split
  · split
    · exact hcount.trans ((Keeps.updLane id id).trans (.reportDevice ..))
    · exact hcount.trans (.updLane id id)
  · split
    · split
      · exact hcount.trans (.updLane id id)
      · exact hcount.trans ((Keeps.updLane id id).trans (.reportDevice ..))
    · exact hcount.trans (.updLane id id)

/-! ### Queues (R108, R116, R123) -/

theorem totalBytes_append (l m : List Frame) : totalBytes (l ++ m) = totalBytes l + totalBytes m := by simp [totalBytes]

theorem totalBytes_tail_le (f : Frame) (l : List Frame) : totalBytes l ≤ totalBytes (f :: l) := by simp [totalBytes]

theorem Keeps.deliver (n : PortId) (f : PortFrame) (s : State) : Keeps s (deliver n f s).1 := by
  unfold Machine.deliver
  split
  · exact .countPort ..
  · rename_i hroom
    show Keeps s (s.updPort n fun p => { p with queue := p.queue ++ [f] })
    refine .updPort (fun h => ⟨h.1, ?_⟩) id
    simp only [List.map_append, totalBytes_append]
    simpa [totalBytes, Config.deliveryCapacity] using hroom

/-- A beacon that replaces another keeps the number of beacons. -/
theorem replaceBeacon_beacons {f : CtlFrame} (hf : f.kind = .beacon) (q : List CtlFrame) :
    ((replaceBeacon f q).filter (fun g => g.kind == .beacon)).length = (q.filter (fun g => g.kind == .beacon)).length := by
  rw [replaceBeacon, List.filter_map, List.length_map]
  congr 1
  refine List.filter_congr fun g _ => ?_
  by_cases hg : g.kind = .beacon <;> simp [hg, hf]

/-- An offer that a control queue takes leaves it within four places and with one beacon at most (R123). -/
theorem offerControl_capacity {f : CtlFrame} {l : Lane} {q : List CtlFrame} (h : offerControl f l.control = some q) (hl : LaneCapacity l) :
    LaneCapacity { l with control := q } := by
  obtain ⟨hret, hlen, hone⟩ := hl
  unfold offerControl at h
  split at h
  · rename_i hb
    cases h
    refine ⟨hret, by simpa [replaceBeacon] using hlen, ?_⟩
    rw [replaceBeacon_beacons hb.1]; exact hone
  · rename_i hb
    split at h
    · rename_i hroom
      cases h
      refine ⟨hret, by rw [List.length_append]; exact hroom, ?_⟩
      rw [List.filter_append, List.length_append]
      by_cases hf : f.kind = .beacon
      · have hnone : l.control.filter (fun g => g.kind == .beacon) = [] := by
          have : ¬ holdsBeacon l.control = true := fun k => hb ⟨hf, k⟩
          simpa [holdsBeacon, List.filter_eq_nil_iff] using this
        rw [hnone, List.length_nil, Nat.zero_add]; exact List.length_filter_le _ [f]
      · have : [f].filter (fun g => g.kind == .beacon) = [] := by simp [hf]
        rw [this]; simpa using hone
    · cases h

theorem takeFirst_sublist {p : CtlFrame → Bool} {q rest : List CtlFrame} {f : CtlFrame} (h : takeFirst p q = some (f, rest)) : rest.Sublist q := by
  induction q generalizing rest with
  | nil => cases h
  | cons g q ih =>
    unfold takeFirst at h
    split at h
    · cases h; exact List.sublist_cons_self ..
    · obtain ⟨r, hr, he⟩ := Option.map_eq_some_iff.1 h
      cases he
      exact (ih hr).cons_cons g

theorem takeControl_sublist {q rest : List CtlFrame} {f : CtlFrame} (h : takeControl q = some (f, rest)) : rest.Sublist q := by
  unfold takeControl at h
  split at h
  · rename_i hr; cases h; exact takeFirst_sublist hr
  · split at h
    · rename_i hr; cases h; exact takeFirst_sublist hr
    · exact takeFirst_sublist h

theorem laneCapacity_control_sublist {l : Lane} {q : List CtlFrame} (h : q.Sublist l.control) (hl : LaneCapacity l) :
    LaneCapacity { l with control := q } :=
  ⟨hl.1, h.length_le.trans hl.2.1, (h.filter _).length_le.trans hl.2.2⟩

/-! ### Lines (R13, R44) -/

theorem Keeps.setInLine {s : State} {p : Place} {l : List InItem} (h : LineInOrder s.bankGen (s.inLine p) → LineInOrder s.bankGen l) :
    Keeps s (s.setInLine p l) := by
  cases p with
  | port n =>
    show Keeps s (s.updPort n fun q => { q with mgmtLine := l })
    exact .updPort id id
  | lane k =>
    show Keeps s (s.updLane k fun q => { q with inLine := l })
    exact .updLane id h

theorem Keeps.pushIn {s : State} (p : Place) {i : InItem} (h : lookupGen i = none) : Keeps s (s.pushIn p i) :=
  .setInLine fun hl => lineInOrder_push hl h

theorem Keeps.startLookups (s : State) (p : Place) : Keeps s (s.startLookups p) := .setInLine beginLookups_inOrder

theorem Keeps.dropIn (p : Place) (i : Nat) (s : State) : Keeps s (dropIn p i s) := .setInLine (lineInOrder_erase i)

/-- The frame at a place of a line goes on to a stage that awaits a lookup only where it might have before (R44). -/
theorem Keeps.stageIn {s : State} {p : Place} {i : Nat} {a b : InItem} (ha : (s.inLine p)[i]? = some a) (hb : lookupGen b = none)
    (hm : mayLookUp b = true → mayLookUp a = true) : Keeps s (stageIn p i b s) :=
  .setInLine fun hl => lineInOrder_set hl ha hb hm

theorem outLineInOrder_push {now : Nat} {l : List OutItem} {i : OutItem} (h : OutLineInOrder now l) (hi : ∀ r, i.stage = .lookup r → r.gen = now) :
    OutLineInOrder now (l ++ [i]) := by
  refine ⟨List.pairwise_append.2 ⟨h.1, List.pairwise_singleton .., fun a ha b hb q r hq hr => ?_⟩, fun a ha r hr => ?_⟩
  · rw [List.mem_singleton.1 hb] at hr
    rw [hi r hr]; exact h.2 a ha q hq
  · rcases List.mem_append.1 ha with ha | ha
    · exact h.2 a ha r hr
    · rw [List.mem_singleton.1 ha] at hr; exact (hi r hr).le

theorem outLineInOrder_erase {now : Nat} {l : List OutItem} (i : Nat) (h : OutLineInOrder now l) : OutLineInOrder now (l.eraseIdx i) :=
  ⟨h.1.sublist (List.eraseIdx_sublist ..), fun a ha => h.2 a ((List.eraseIdx_sublist ..).subset ha)⟩

theorem outLineInOrder_set {now : Nat} {l : List OutItem} {i : Nat} {b : OutItem} (hb : ∀ r, b.stage ≠ .lookup r) (h : OutLineInOrder now l) :
    OutLineInOrder now (l.set i b) := by
  refine ⟨?_, fun a ha r hr => ?_⟩
  · induction l generalizing i with
    | nil => exact .nil
    | cons x l ih =>
      obtain ⟨hx, hl⟩ := List.pairwise_cons.1 h.1
      have hrest : OutLineInOrder now l := ⟨hl, fun a ha => h.2 a (List.mem_cons_of_mem _ ha)⟩
      cases i with
      | zero => exact List.pairwise_cons.2 ⟨fun y _ q r hq => absurd hq (hb q), hl⟩
      | succ i =>
        refine List.pairwise_cons.2 ⟨fun y hy => ?_, ih hrest⟩
        rcases List.mem_or_eq_of_mem_set hy with hy | rfl
        · exact hx y hy
        · exact fun q r _ hr => absurd hr (hb r)
  · rcases List.mem_or_eq_of_mem_set ha with ha | rfl
    · exact h.2 a ha r hr
    · exact absurd hr (hb r)

theorem Keeps.dropOut (n : PortId) (i : Nat) (s : State) : Keeps s (dropOut n i s) := .updPort id (outLineInOrder_erase i)

theorem Keeps.stageOut (n : PortId) (i : Nat) {item : OutItem} (h : ∀ r, item.stage ≠ .lookup r) (s : State) : Keeps s (stageOut n i item s) :=
  .updPort id (outLineInOrder_set h)

end Sys2Proof.Kept
end

section
/-! What the directives and the runner keep. -/

namespace Sys2Proof.Kept
open Sys2Proof.Machine Sys2Proof.Safety

/-- The state in which a directive ended or began its operation. -/
def resultState : DirResult → State
  | .ended _ _ s => s
  | .begun s => s

/-- A directive keeps the conditions, however it ends. -/
def DirKeeps (s : State) (r : DirResult) : Prop := Keeps s (resultState r)

theorem DirKeeps.refused (o : DirOutcome) (s : State) : DirKeeps s (dirRefused o s) := Keeps.refl s
theorem DirKeeps.done {s t : State} (data : List Byte) (h : Keeps s t) : DirKeeps s (dirDone data t) := h
theorem DirKeeps.begun {s t : State} (h : Keeps s t) : DirKeeps s (.begun t) := h

/-! ### Channels, keys and the switch (R25 to R33, R98 to R101) -/

/-- A CLOSED channel opens with an empty window on each side (R30). -/
theorem chanKeeps_open {ch : Channel} (h : ch.isOpen = false) (cfg : ChanConfig) (v : Vector Counter 13) :
    ChanKeeps ch { ch with isOpen := true, config := cfg, counters := v } where
  rollover := id
  slots := by
    have hopen : ∀ {w v : Nat} {i : InSlot}, InOk ch.isOpen w i → InOk true v i := by
      rintro w v i ⟨hclear, hclosed, -⟩
      obtain ⟨-, -, -, -, -, -, hmarks, -⟩ := hclear (hclosed h)
      exact ⟨hclear, fun k => absurd k (by decide), windowOk_nil hmarks⟩
    rw [slotsOk_iff .a, slotsOk_iff .a]
    exact fun ⟨hout, ha, hb⟩ => ⟨hout, hopen ha, hopen hb⟩
  empty := id
  isOpen _ := rfl

theorem dirChanOpen_keeps (ops : List Byte) (s : State) : DirKeeps s (dirChanOpen ops s) := by
  unfold dirChanOpen
  split
  · exact .refused ..
  · split
    · exact .refused ..
    · split
      · exact .refused ..
      · split
        · exact .refused ..
        · split
          · exact .refused ..
          · rename_i hclosed
            exact .done _ (.updChan (chanKeeps_open (by simpa using hclosed) _ _))

theorem windowOk_remark (w : Nat) (i : InSlot) : WindowOk w { i with marks := remark w i.top } := by
  unfold remark
  split
  · exact windowOk_nil rfl
  · refine ⟨List.pairwise_lt_range' .., fun m hm => ?_⟩
    simp only [List.mem_range'_1] at hm
    simp only
    omega

theorem inOk_remarkSlot {isOpen : Bool} {w v : Nat} {i : InSlot} (h : InOk isOpen w i) : InOk isOpen v (remarkSlot v i) := by
  obtain ⟨hclear, hclosed, -⟩ := h
  unfold remarkSlot
  split
  · rename_i he
    obtain ⟨-, -, -, -, -, -, hmarks, -⟩ := hclear he
    exact ⟨hclear, hclosed, windowOk_nil hmarks⟩
  · rename_i hne
    exact ⟨fun e => absurd e hne, hclosed, windowOk_remark v i⟩

@[simp] theorem remarkSlot_state (w : Nat) (i : InSlot) : (remarkSlot w i).state = i.state := by unfold remarkSlot; split <;> rfl
@[simp] theorem remarkSlot_epoch (w : Nat) (i : InSlot) : (remarkSlot w i).epoch = i.epoch := by unfold remarkSlot; split <;> rfl

/-- CHAN-SET marks the windows afresh for another W (R32). -/
theorem chanKeeps_set (ch : Channel) (cfg : ChanConfig) : ChanKeeps ch (if cfg.window = ch.config.window then { ch with config := cfg }
    else { ch with config := cfg, inA := remarkSlot cfg.window ch.inA, inB := remarkSlot cfg.window ch.inB }) := by
  split
  · rename_i h
    exact .of_slots_eq (fun x => by cases x <;> rfl) (fun x => by cases x <;> rfl) rfl h
  · refine ⟨?_, ?_, ?_, id⟩
    · rw [rolloverOk_iff .a, rolloverOk_iff .a]
      simp only [InPairOk, Channel.outSlot, Channel.inSlot, Letter.other, remarkSlot_state, remarkSlot_epoch]; exact id
    · rw [slotsOk_iff .a, slotsOk_iff .a]
      exact fun ⟨hout, ha, hb⟩ => ⟨hout, inOk_remarkSlot ha, inOk_remarkSlot hb⟩
    · rw [slotsEmpty_iff .a, slotsEmpty_iff .a]
      simp only [Channel.outSlot, Channel.inSlot, Letter.other, remarkSlot_state]; exact id

theorem dirChanSet_keeps (ops : List Byte) (s : State) : DirKeeps s (dirChanSet ops s) := by
  unfold dirChanSet
  split
  · exact .refused ..
  · split
    · exact .refused ..
    · split
      · exact .refused ..
      · split
        · exact .refused ..
        · split
          · exact .refused ..
          · exact .done _ (.updChan (chanKeeps_set ..))

theorem not_inService_closeOut (o : OutSlot) : ¬ inService (closeOut o) := by
  unfold closeOut; split
  · simp [inService, *]
  · exact not_inService_emptyOut o

theorem outOk_closeOut (o : OutSlot) : OutOk (closeOut o) := by
  unfold closeOut; split
  · exact outOk_of_ne_empty (by simp [*])
  · exact fun _ => outCleared_emptyOut o

theorem closeOut_empty {o : OutSlot} (h : o.state = .empty) : (closeOut o).state = .empty := by simp [closeOut, h, emptyOut]

theorem dirChanClose_keeps (ops : List Byte) (s : State) : DirKeeps s (dirChanClose ops s) := by
  unfold dirChanClose
  split
  · exact .refused ..
  · split
    · exact .refused ..
    · split
      · exact .refused ..
      · rename_i c _ hc
        split
        · refine DirKeeps.done _ (Keeps.updChan_of (fun _ => ?_) (fun _ => ?_) (fun h0 => ?_) fun h0 => ?_)
          · rw [rolloverOk_iff .a]
            refine ⟨fun h => not_inService_closeOut _ h.1, ?_⟩
            simp [InPairOk, Channel.inSlot, Letter.other, emptyIn]
          · rw [slotsOk_iff .a]
            exact ⟨⟨outOk_closeOut _, outOk_closeOut _⟩, inOk_emptyIn .., inOk_emptyIn ..⟩
          all_goals subst h0; exact absurd (by decide) hc
        · exact .done _ (.refl s)

theorem dirKeyStage_keeps (ops : List Byte) (s : State) : DirKeeps s (dirKeyStage ops s) := by
  unfold dirKeyStage
  split
  · exact .refused ..
  · exact .done _ ⟨⟨id, id, id, id, id⟩, rfl, fun _ => id⟩

/-- What the STATE checks of KEY-COMMIT let pass (R26). -/
theorem commitStateRefused_false {s : State} {c : Chan} {out inb : Bool} {x : Letter} (h : commitStateRefused s c out inb x = false) :
    s.pins.zeroizeHigh = true ∧ (s.chan c).isOpen = true ∧ (out = true → ¬ inService ((s.chan c).outSlot x)) ∧
    (inb = true → ((s.chan c).inSlot x).state ≠ .current) ∧
    (inb = true → ((s.chan c).inSlot x.other).state ≠ .empty → ((s.chan c).inSlot x.other).epoch ≠ some s.staging.epoch) := by
  simp only [commitStateRefused, Bool.or_eq_false_iff, Bool.and_eq_false_iff, Bool.not_eq_false', beq_eq_false_iff_ne, ne_eq] at h
  obtain ⟨⟨⟨⟨⟨⟨hz, -⟩, hopen⟩, hserv⟩, -⟩, hcur⟩, hepoch⟩ := h
  refine ⟨hz, hopen, fun ho hs => ?_, fun hi => ?_, fun hi hne he => ?_⟩
  · rcases hserv with k | ⟨k1, k2⟩
    · simp [ho] at k
    · rcases hs with e | e
      · exact k1 e
      · exact k2 e
  · rcases hcur with k | k
    · simp [hi] at k
    · exact k
  · rcases hepoch with (k | k) | k
    · simp [hi] at k
    · simp only [bne_eq_false_iff_eq] at k; exact hne k
    · exact k he

/-- An inbound slot that a KEY-COMMIT writes stands beside the other as R28 asks. -/
theorem rollover_slots_commitInSide {ch : Channel} {st : Staging} {kcv : Kcv} {x : Letter} (hopen : ch.isOpen = true)
    (hcur : (ch.inSlot x).state ≠ .current) (hepoch : (ch.inSlot x.other).state ≠ .empty → (ch.inSlot x.other).epoch ≠ some st.epoch) :
    (RolloverOk ch → RolloverOk (commitInSide st kcv x ch)) ∧ (SlotsOk ch → SlotsOk (commitInSide st kcv x ch)) := by
  constructor
  · rw [rolloverOk_iff x, rolloverOk_iff x, commitInSide]
    simp only [Channel.outSlot_setIn, Channel.inSlot_setIn, if_true, Letter.other_ne, if_false]
    rintro ⟨hout, -, -, hfade, -⟩
    refine ⟨hout, by simp [commitIn], by simp [commitIn], fun hf => absurd (hfade hf) hcur, fun _ hne => ?_⟩
    exact fun e => hepoch hne e.symm
  · rw [slotsOk_iff x, slotsOk_iff x, commitInSide]
    simp only [Channel.outSlot_setIn, Channel.inSlot_setIn, Channel.setIn_isOpen, Channel.setIn_config, if_true, Letter.other_ne, if_false]
    rintro ⟨hout, -, hother⟩
    exact ⟨hout, ⟨by simp [commitIn], by simp [hopen], windowOk_nil rfl⟩, hother⟩

/-- An outbound slot that a KEY-COMMIT writes is LOADED where no slot was in service (R27). -/
theorem rollover_slots_commitOutSide {ch : Channel} (now : Time) {st : Staging} {kcv : Kcv} {x : Letter} :
    (RolloverOk ch → RolloverOk (commitOutSide now st kcv x ch).1) ∧ (SlotsOk ch → SlotsOk (commitOutSide now st kcv x ch).1) := by
  have hload : (RolloverOk ch → RolloverOk (ch.setOut x (commitOut st kcv (ch.outSlot x)))) ∧
      (SlotsOk ch → SlotsOk (ch.setOut x (commitOut st kcv (ch.outSlot x)))) := by
    constructor
    · rw [rolloverOk_iff x, rolloverOk_iff x]
      simp only [Channel.outSlot_setOut, Channel.inSlot_setOut, if_true, Letter.other_ne, if_false]
      exact fun h => ⟨fun k => by simp [inService, commitOut] at k, h.2⟩
    · rw [slotsOk_iff x, slotsOk_iff x]
      simp only [Channel.outSlot_setOut, Channel.inSlot_setOut, Channel.setOut_isOpen, Channel.setOut_config, if_true, Letter.other_ne, if_false]
      exact fun h => ⟨⟨outOk_of_ne_empty (by simp [commitOut]), h.1.2⟩, h.2⟩
  unfold commitOutSide
  simp only
  split
  · exact ⟨(ChanKeeps.requestSwitch now _).rollover ∘ hload.1, (ChanKeeps.requestSwitch now _).slots ∘ hload.2⟩
  · exact hload

@[simp] theorem requestSwitch_isOpen (now : Time) (ch : Channel) : (requestSwitch now ch).1.isOpen = ch.isOpen := by
  unfold requestSwitch makeSwitch
  split
  · simp only; split <;> simp
  · rfl

@[simp] theorem commitOutSide_isOpen (now : Time) (st : Staging) (kcv : Kcv) (x : Letter) (ch : Channel) :
    (commitOutSide now st kcv x ch).1.isOpen = ch.isOpen := by
  unfold commitOutSide; simp only; split <;> simp

theorem commitKey_keeps {s : State} {c : Chan} {out inb : Bool} {x : Letter} (hb : blocked s = false)
    (h : commitStateRefused s c out inb x = false) : Keeps s (commitKey c out inb x s) := by
  obtain ⟨hz, hopen, -, hcur, hepoch⟩ := commitStateRefused_false h
  unfold commitKey
  generalize hch : (if inb then commitInSide s.staging (kcvOf s.staging.key) x (s.chan c) else s.chan c) = ch1
  have hin : (RolloverOk (s.chan c) → RolloverOk ch1) ∧ (SlotsOk (s.chan c) → SlotsOk ch1) ∧ ch1.isOpen = true := by
    subst hch
    split
    · rename_i hi
      obtain ⟨h1, h2⟩ := rollover_slots_commitInSide (st := s.staging) (kcv := kcvOf s.staging.key) hopen (hcur hi) (hepoch hi)
      exact ⟨h1, h2, by simp [commitInSide, hopen]⟩
    · exact ⟨id, id, hopen⟩
  generalize hr : (if out then commitOutSide s.time s.staging (kcvOf s.staging.key) x ch1 else (ch1, 0)) = r
  have hout : (RolloverOk ch1 → RolloverOk r.1) ∧ (SlotsOk ch1 → SlotsOk r.1) ∧ r.1.isOpen = ch1.isOpen := by
    subst hr
    split
    · obtain ⟨h1, h2⟩ := rollover_slots_commitOutSide (ch := ch1) s.time (st := s.staging) (kcv := kcvOf s.staging.key) (x := x)
      exact ⟨h1, h2, commitOutSide_isOpen ..⟩
    · exact ⟨id, id, rfl⟩
  have hwrite : Keeps s (s.updChan c fun _ => r.1) := by
    refine .updChan_of (hout.1 ∘ hin.1) (hout.2.1 ∘ hin.2.1) (fun _ hbad => ?_) fun _ _ => hout.2.2.trans hin.2.2
    rcases hbad with k | k
    · rw [hb] at k; cases k
    · rw [hz] at k; cases k
  have hstage : Keeps (s.updChan c fun _ => r.1) { s.updChan c (fun _ => r.1) with staging := Staging.cold } :=
    ⟨⟨id, id, id, id, id⟩, rfl, fun _ => id⟩
  simp only [hch, hr]
  exact hwrite.trans (hstage.trans (.reportChan ..))

theorem dirKeyCommit_keeps {s : State} (hb : blocked s = false) (ops : List Byte) : DirKeeps s (dirKeyCommit ops s) := by
  unfold dirKeyCommit
  split
  · exact .refused ..
  · split
    · split
      · exact .refused ..
      · rename_i hpass
        split
        · exact .refused ..
        · exact .done _ (commitKey_keeps hb (by simpa using hpass))
    · exact .refused ..

theorem eraseOut_keeps (c : Chan) (x : Letter) (s : State) : DirKeeps s (eraseOut c x s) := by
  unfold eraseOut
  split
  case h_2 => exact .done _ (.updChan (.setOut_emptyOut ..))
  case h_1 => exact .done _ (.refl s)
  all_goals exact .refused ..

theorem eraseIn_keeps (c : Chan) (x : Letter) (s : State) : DirKeeps s (eraseIn c x s) := by
  unfold eraseIn
  split
  · exact .done _ (.refl s)
  · rename_i h; exact .done _ (.updChan (.setIn_emptyIn (.inl (by simp [h]))))
  · rename_i h; exact .done _ (.updChan (.setIn_emptyIn (.inl (by simp [h]))))
  · split
    · exact .refused ..
    · rename_i h; exact .done _ (.updChan (.setIn_emptyIn (.inr h)))

theorem dirKeyErase_keeps (ops : List Byte) (s : State) : DirKeeps s (dirKeyErase ops s) := by
  unfold dirKeyErase
  split
  · exact .refused ..
  · split
    · split
      · exact eraseIn_keeps ..
      · exact eraseOut_keeps ..
    · exact .refused ..

theorem dirSwitchNow_keeps (ops : List Byte) (s : State) : DirKeeps s (dirSwitchNow ops s) := by
  unfold dirSwitchNow
  split
  · exact .refused ..
  · split
    · exact .refused ..
    · split
      · exact .refused ..
      · rename_i hmade
        have hmade := (not_or.1 hmade).2
        exact .done _ ((Keeps.updChan (.makeSwitch _ (by simpa using hmade))).trans (.reportChan ..))

theorem scheduledSwitch_keeps (c : Chan) (s : State) : Keeps s (scheduledSwitch c s) := by
  unfold scheduledSwitch
  split
  · exact (Keeps.updChan (.makeSwitch _ ‹_›)).trans (.reportChan ..)
  · exact .reportChan ..

theorem dirSwitchAt_keeps (ops : List Byte) (s : State) : DirKeeps s (dirSwitchAt ops s) := by
  unfold dirSwitchAt
  split
  · exact .refused ..
  · split
    · exact .refused ..
    · split
      · exact .refused ..
      · simp only
        split
        · exact .done _ (.updChan (.schedule ..))
        · exact .done _ ((Keeps.updChan (.schedule ..)).trans (scheduledSwitch_keeps ..))

theorem dirSwitchCancel_keeps (ops : List Byte) (s : State) : DirKeeps s (dirSwitchCancel ops s) := by
  unfold dirSwitchCancel
  split
  · exact .refused ..
  · split
    · exact .refused ..
    · exact .done _ (.updChan (.schedule ..))

/-! ### The classifier (R50 to R56) -/

theorem shadow_keeps (s : State) (b : Bank) : Keeps s { s with shadow := b } := ⟨⟨id, id, id, id, id⟩, rfl, fun _ => id⟩

theorem nextFree_keeps (s : State) : Keeps s (nextFree s) := ⟨⟨id, id, id, id, id⟩, rfl, fun _ => id⟩

theorem ruleEdit_keeps (base : Entry → Entry) (ops : List Byte) (s : State) : DirKeeps s (ruleEdit base ops s) := by
  unfold ruleEdit
  split
  · exact .refused ..
  · split
    · exact .refused ..
    · split
      · exact .refused ..
      · split
        · exact .refused ..
        · split
          · exact .refused ..
          · exact .done _ ((shadow_keeps s _).trans (nextFree_keeps _))

theorem dirRuleClear_keeps (ops : List Byte) (s : State) : DirKeeps s (dirRuleClear ops s) := by
  unfold dirRuleClear
  split
  · exact .refused ..
  · simp only
    split
    · exact .refused ..
    · exact .done _ (shadow_keeps s _)

theorem dirRuleRead_keeps (ops : List Byte) (s : State) : DirKeeps s (dirRuleRead ops s) := by
  unfold dirRuleRead
  split
  · exact .refused ..
  · split
    · exact .done _ (nextFree_keeps s)
    · exact .done _ (nextFree_keeps s)
    · exact .refused ..

theorem dirRuleMove_keeps (ops : List Byte) (s : State) : DirKeeps s (dirRuleMove ops s) := by
  unfold dirRuleMove
  split
  · exact .refused ..
  · simp only
    split
    · exact .refused ..
    · exact .begun ⟨⟨id, id, id, id, id⟩, rfl, fun _ => id⟩

/-- A TABLE-COMMIT makes every lookup under way one of an older bank, and no lookup younger (R44, R55). -/
theorem lookupsInOrder_commitTable {s : State} (h : LookupsInOrder s) : LookupsInOrder (commitTable s) :=
  ⟨fun k => ⟨(h.1 k).1, fun a ha g hg => Nat.le_succ_of_le ((h.1 k).2 a ha g hg)⟩,
    fun n => ⟨(h.2 n).1, fun a ha r hr => Nat.le_succ_of_le ((h.2 n).2 a ha r hr)⟩⟩

theorem dirTableCommit_keeps (ops : List Byte) (s : State) : DirKeeps s (dirTableCommit ops s) := by
  unfold dirTableCommit
  split
  · exact .refused ..
  · exact .done _ ⟨⟨id, id, id, lookupsInOrder_commitTable, id⟩, rfl, fun _ => id⟩

theorem dirTableRevert_keeps (ops : List Byte) (s : State) : DirKeeps s (dirTableRevert ops s) := by
  unfold dirTableRevert
  split
  · exact .refused ..
  · exact .done _ (shadow_keeps s _)

/-! ### Ports and lanes (R114, R138, R144, R149, R151) -/

/-- Judging the pause record touches neither queue nor line of a port. -/
theorem judgePortSet_lines (p : Port) :
    (judgePortSet p).buffer = p.buffer ∧ (judgePortSet p).queue = p.queue ∧ (judgePortSet p).outLine = p.outLine := by
  have hbegin : (beginPause p).buffer = p.buffer ∧ (beginPause p).queue = p.queue ∧ (beginPause p).outLine = p.outLine := ⟨rfl, rfl, rfl⟩
  have hend : (endPause p).buffer = p.buffer ∧ (endPause p).queue = p.queue ∧ (endPause p).outLine = p.outLine := by
    unfold endPause; split <;> exact ⟨rfl, rfl, rfl⟩
  unfold judgePortSet
  split
  · split
    · exact hbegin
    · exact ⟨rfl, rfl, rfl⟩
  · split
    · exact hend
    · exact ⟨rfl, rfl, rfl⟩
  · exact hend
  · exact ⟨rfl, rfl, rfl⟩

theorem dirPortSet_keeps (ops : List Byte) (s : State) : DirKeeps s (dirPortSet ops s) := by
  unfold dirPortSet
  split
  · exact .refused ..
  · split
    · exact .refused ..
    · rename_i fs _
      split
      · exact .refused ..
      · rename_i n _
        split
        · exact .refused ..
        · have hlines : (portWith fs (s.port n)).buffer = (s.port n).buffer ∧ (portWith fs (s.port n)).queue = (s.port n).queue ∧
              (portWith fs (s.port n)).outLine = (s.port n).outLine := judgePortSet_lines _
          obtain ⟨hbuf, hqueue, hline⟩ := hlines
          refine DirKeeps.done _ (Keeps.updPort ?_ ?_)
          · rw [PortCapacity, PortCapacity, hbuf, hqueue]; exact id
          · rw [hline]; exact id

theorem dirLaneSet_keeps (ops : List Byte) (s : State) : DirKeeps s (dirLaneSet ops s) := by
  unfold dirLaneSet
  split
  · exact .refused ..
  · split
    · exact .refused ..
    · split
      · exact .refused ..
      · exact .done _ ((Keeps.updProt ..).trans (.runArbiter _))

theorem localMode_keeps (fs : FieldList) (k : LaneId) (s : State) : Keeps s (localMode fs k s) := by
  unfold localMode
  split
  · exact .beginCipher ..
  · exact (Keeps.updLane id id).trans (.endLine ..)
  · exact .endCipher ..
  · exact .refl s

theorem dirLoopSet_keeps (ops : List Byte) (s : State) : DirKeeps s (dirLoopSet ops s) := by
  unfold dirLoopSet
  split
  · exact .refused ..
  · split
    · exact .refused ..
    · split
      · exact .refused ..
      · split
        · exact .refused ..
        · split
          · exact .refused ..
          · exact .done _ ((localMode_keeps ..).trans (Keeps.updLane id id))

theorem testWith_lines (s : State) (on : Bool) (fs : FieldList) (l : Lane) : (testWith s on fs l).returnQueue = l.returnQueue ∧
    (testWith s on fs l).control = l.control ∧ (testWith s on fs l).inLine = l.inLine := by
  unfold testWith; simp only; split <;> exact ⟨rfl, rfl, rfl⟩

theorem dirTestSet_keeps (ops : List Byte) (s : State) : DirKeeps s (dirTestSet ops s) := by
  unfold dirTestSet
  split
  · exact .refused ..
  · split
    · exact .refused ..
    · rename_i fs _
      split
      · rename_i k on _ _
        obtain ⟨hret, hctl, hline⟩ := testWith_lines s on fs (s.lane k)
        refine DirKeeps.done _ (Keeps.updLane ?_ ?_)
        · rw [LaneCapacity, LaneCapacity, hret, hctl]; exact id
        · rw [hline]; exact id
      · exact .refused ..

theorem dirTestInject_keeps (ops : List Byte) (s : State) : DirKeeps s (dirTestInject ops s) := by
  unfold dirTestInject
  split
  · exact .refused ..
  · split
    · split
      · exact .done _ (.updLane id id)
      · exact .refused ..
    · exact .refused ..

/-! ### The agent and the identity unit (R162 to R176) -/

theorem sweepChan_keeps (clear : Bool) (c : Chan) (s : State) : Keeps s (sweepChan clear c s).2 := by
  unfold sweepChan
  simp only
  split
  · exact .updChan (.of_slots_eq (fun x => by cases x <;> rfl) (fun x => by cases x <;> rfl) rfl rfl)
  · exact .refl s

theorem sweepChans_keeps (clear : Bool) (n : Nat) (c : Chan) (s : State) : Keeps s (sweepChans clear n c s).2 := by
  induction n generalizing c s with
  | zero => exact .refl s
  | succ n ih => exact (sweepChan_keeps ..).trans (ih ..)

theorem dirCountSweep_keeps (ops : List Byte) (s : State) : DirKeeps s (dirCountSweep ops s) := by
  unfold dirCountSweep
  split
  · exact .refused ..
  · split
    · simp only
      split
      · exact .refused ..
      · exact .done _ (sweepChans_keeps ..)
    · exact .refused ..

theorem readPlace_keeps (clear : Bool) (place : Nat) (s : State) : Keeps s (readPlace clear place s).2 := by
  unfold readPlace
  split
  · simp only; split
    · exact .updPort id id
    · exact .refl s
  · split
    · simp only; split
      · exact .updLane id id
      · exact .refl s
    · simp only; split
      · exact .updAgent id id
      · exact .refl s

theorem readPlaces_keeps (clear : Bool) (n place : Nat) (s : State) : Keeps s (readPlaces clear n place s).2 := by
  induction n generalizing place s with
  | zero => exact .refl s
  | succ n ih => exact (readPlace_keeps ..).trans (ih ..)

theorem dirPortCounts_keeps (ops : List Byte) (s : State) : DirKeeps s (dirPortCounts ops s) := by
  unfold dirPortCounts
  split
  · exact .refused ..
  · split
    · simp only
      split
      · exact .refused ..
      · exact .done _ (readPlaces_keeps ..)
    · exact .refused ..

theorem dirNoticeMask_keeps (ops : List Byte) (s : State) : DirKeeps s (dirNoticeMask ops s) := by
  unfold dirNoticeMask
  split
  · exact .refused ..
  · split
    · exact .refused ..
    · exact .done _ (Keeps.updAgent id id)

/-- A burn begins on an unlocked part alone (R174). -/
theorem dirIdBurn_keeps (ops : List Byte) (s : State) : DirKeeps s (dirIdBurn ops s) := by
  unfold dirIdBurn
  split
  · exact .refused ..
  · split
    · exact .refused ..
    · split
      · exact .refused ..
      · split
        · exact .refused ..
        · rename_i hlock
          split
          · exact .done _ (.refl s)
          · exact .begun ⟨⟨id, id, id, id, id⟩, rfl, fun h => absurd h hlock⟩

theorem dirZeroize_keeps {s : State} (hb : blocked s = false) (ops : List Byte) : DirKeeps s (dirZeroize ops s) := by
  unfold dirZeroize
  split
  · exact .refused ..
  · exact .done _ ((Keeps.zeroizeTable s).loadIfLocked (fun _ => slotsEmpty_zeroizeTable s 0) hb)

theorem dirRestart_keeps (last : Bool) (ops : List Byte) (s : State) : DirKeeps s (dirRestart last ops s) := by
  unfold dirRestart
  split
  · exact .refused ..
  · exact .done _ (Keeps.updAgent id id)

/-- A directive that only reads leaves the state, whether it is refused or not. -/
theorem dirRead_keeps (p : Prop) [Decidable p] (o : DirOutcome) (data : List Byte) (s : State) :
    DirKeeps s (if p then dirRefused o s else dirDone data s) := by
  split
  · exact .refused ..
  · exact .done _ (.refl s)

theorem dirChanRead_keeps (ops : List Byte) (s : State) : DirKeeps s (dirChanRead ops s) := by
  unfold dirChanRead
  split
  · exact .refused ..
  · split
    · exact .refused ..
    · exact .done _ (.refl s)

/-- Every directive keeps the conditions on a part that is not BLOCKED. -/
theorem perform_keeps {s : State} (hb : blocked s = false) (last : Bool) (d : Directive) : DirKeeps s (perform last d s) := by
  unfold perform
  split
  · exact dirChanOpen_keeps ..
  · exact dirChanSet_keeps ..
  · exact dirChanClose_keeps ..
  · exact dirChanRead_keeps ..
  · exact dirKeyStage_keeps ..
  · exact dirKeyCommit_keeps hb _
  · exact dirKeyErase_keeps ..
  · exact dirSwitchNow_keeps ..
  · exact dirSwitchAt_keeps ..
  · exact dirSwitchCancel_keeps ..
  · exact dirRead_keeps ..
  · exact ruleEdit_keeps ..
  · exact ruleEdit_keeps ..
  · exact dirRuleClear_keeps ..
  · exact dirRuleRead_keeps ..
  · exact dirRuleMove_keeps ..
  · exact dirTableCommit_keeps ..
  · exact dirTableRevert_keeps ..
  · exact dirPortSet_keeps ..
  · exact dirLaneSet_keeps ..
  · exact dirLoopSet_keeps ..
  · exact dirTestSet_keeps ..
  · exact dirTestInject_keeps ..
  · exact dirCountSweep_keeps ..
  · exact dirPortCounts_keeps ..
  · exact dirRead_keeps ..
  · exact dirNoticeMask_keeps ..
  · exact dirRead_keeps ..
  · exact dirIdBurn_keeps ..
  · exact dirZeroize_keeps hb _
  · exact dirRestart_keeps ..
  · exact .refused ..

/-! ### The runner (R158 to R160) -/

theorem finishRun_keeps (r : Run) (s : State) : Keeps s (finishRun r s) := .updAgent id fun _ => .inr rfl

/-- A request that stays in hand was in hand, so the part is not BLOCKED if it was not before. -/
theorem keepRun_keeps {s : State} {q : Run} (h : s.agent.run = some q) (r : Run) : Keeps s (keepRun r s) := by
  unfold keepRun
  split
  · exact finishRun_keeps ..
  · exact .updAgent id fun hr => .inl (hr.resolve_right (by simp [h]))

theorem endDirective_keeps (rec : Record) (s : State) : Keeps s (endDirective rec s) := by
  unfold endDirective
  split
  · exact keepRun_keeps ‹_› _
  · exact ⟨⟨id, id, id, id, id⟩, rfl, fun _ => id⟩

theorem carryOut_keeps {s : State} (hb : blocked s = false) (last : Bool) (d : Directive) : Keeps s (carryOut last d s) := by
  have hd := perform_keeps hb last d
  unfold carryOut
  generalize perform last d s = r at hd ⊢
  cases r with
  | ended o data t => exact hd.trans (endDirective_keeps ..)
  | begun t => exact hd

theorem runOne_keeps {s : State} (hr : RunnerOk s) : Keeps s (runOne s) := by
  unfold runOne
  split
  · exact .refl s
  · rename_i r h
    have hb : blocked s = false := hr.resolve_right (by simp [h])
    split
    · exact finishRun_keeps ..
    · rename_i rest _
      have htake : Keeps s (s.updAgent fun a => { a with run := some { r with rest } }) := .updAgent id fun _ => .inl hb
      simp only
      split
      · exact htake.trans (carryOut_keeps (by exact hb) ..)
      · exact htake.trans (endDirective_keeps ..)

theorem runMany_keeps {s : State} (hr : RunnerOk s) (n : Nat) : Keeps s (runMany n s) := by
  induction n generalizing s with
  | zero => exact .refl s
  | succ n ih =>
    unfold runMany
    split
    · exact .refl s
    · have hone : Keeps s (settle (runOne s)) := (runOne_keeps hr).trans (.settle _)
      exact hone.trans (ih (hone.runner hr))

theorem takeOldest_keeps {s : State} (hb : blocked s = false) : Keeps s (takeOldest s) := by
  unfold takeOldest
  split
  · exact .refl s
  · rename_i q rest hq
    split
    · refine .updAgent (fun h => ?_) fun _ => .inl hb
      rw [hq] at h
      exact (Nat.le_succ _).trans h
    · exact .refl s

theorem takeDirective_keeps (code : Byte) (ops : List Byte) (s : State) : Keeps s (takeDirective code ops s) := by
  unfold takeDirective
  split
  · exact .refl s
  · rename_i hgo
    have hb : blocked s = false := by
      simp only [Bool.or_eq_true, not_or, Bool.not_eq_true] at hgo
      exact hgo.1.1.1
    split
    · split
      · exact (runOne_keeps (.inl hb)).trans (.settle _)
      · exact .refl s
    · exact (carryOut_keeps hb ..).trans (.settle _)

end Sys2Proof.Kept
end

section
/-! What every command keeps, and with it the four statements on every step. -/

namespace Sys2Proof.Kept
open Sys2Proof.Machine Sys2Proof.Safety

/-! ### Start-up, pins and time (R91, R127, R169 to R175) -/

theorem releaseReset_keeps (s : State) : Keeps s (releaseReset s) := by
  have hpin : Keeps s { s with pins := { s.pins with resetHigh := true } } := ⟨⟨id, id, id, id, id⟩, rfl, fun _ => id⟩
  unfold releaseReset
  simp only
  split
  · rename_i hp
    have hb : blocked s = true := by unfold blocked; rw [hp]
    refine ⟨⟨fun h => ⟨h.1, fun _ => h.2 (.inl hb)⟩, id, id, id, fun hr => .inr (hr.resolve_left (by simp [hb]))⟩, rfl, fun _ => id⟩
  · exact hpin

/-- The self-check ends: FAILED stays BLOCKED, and a pass loads channel 0, which waited without keys (R170, R171). -/
theorem endSelfCheck_keeps (a b c : Bool) (s : State) : Keeps s (endSelfCheck a b c s) := by
  unfold endSelfCheck
  split
  · rename_i check hp
    have hb : blocked s = true := by unfold blocked; rw [hp]
    have hidle : RunnerOk s → s.agent.run = none := fun hr => hr.resolve_left (by simp [hb])
    split
    · exact ⟨⟨fun h => ⟨h.1, fun _ => h.2 (.inl hb)⟩, id, id, id, fun hr => .inr (hidle hr)⟩, rfl, fun _ => id⟩
    · refine Keeps.trans ?_ (.settle _)
      unfold selfCheckPass
      have hpart : blocked { s with part := if lockBit s then .running else .unprovisioned } = false := by
        unfold blocked; cases lockBit s <;> rfl
      refine Keeps.loadIfLocked ?_ (fun h => h.2 (.inl hb)) hpart
      have hlane : ∀ t l, (startLane t l).returnQueue = l.returnQueue ∧ (startLane t l).control = l.control ∧ (startLane t l).inLine = l.inLine :=
        fun _ _ => ⟨rfl, rfl, rfl⟩
      have hlanes : ∀ (t : State) (k : LaneId), (mapVec (startLane t) s.lanes)[k] = startLane t (s.lane k) := fun t k => mapVec_get ..
      refine ⟨⟨fun h => ⟨h.1, fun _ => h.2 (.inl hb)⟩, id, ?_, ?_, fun _ => .inl hpart⟩, rfl, fun _ => id⟩
      · simp only [capacityInv_iff, State.lane, LaneCapacity]
        refine fun h => ⟨h.1, fun k => ?_, h.2.2⟩
        erw [hlanes]; exact h.2.1 k
      · simp only [lookupsInOrder_iff, State.lane]
        refine fun h => ⟨fun k => ?_, h.2⟩
        erw [hlanes]; exact h.1 k
  · exact .refl s

theorem zeroizeAssert_keeps (s : State) : Keeps s (zeroizeTable { s with pins := { s.pins with zeroizeHigh := false } }) := by
  have hz := Keeps.zeroizeTable s
  exact ⟨⟨fun h => ⟨(hz.rollover h).1, fun _ => slotsEmpty_zeroizeTable s 0⟩, hz.slots, id, id, id⟩, rfl, fun _ => id⟩

/-- ZEROIZE_N goes high: channel 0 waited without keys (R175). -/
theorem releaseZeroize_keeps {s : State} (h : s.pins.zeroizeHigh = false) : Keeps s (releaseZeroize s) := by
  have hpin : Keeps s { s with pins := { s.pins with zeroizeHigh := true } } :=
    ⟨⟨fun hr => ⟨hr.1, fun _ => hr.2 (.inr h)⟩, id, id, id, id⟩, rfl, fun _ => id⟩
  unfold releaseZeroize
  simp only
  split
  · exact hpin.trans (.settle _)
  · rename_i hb
    exact (hpin.loadIfLocked (fun hr => hr.2 (.inr h)) (by simpa using hb)).trans (.settle _)

theorem losPins_keeps (s : State) (l : BitVec 5) : Keeps s { s with pins := { s.pins with los := l } } := ⟨⟨id, id, id, id, id⟩, rfl, fun _ => id⟩

theorem assertLos_keeps (k : LaneId) (s : State) : Keeps s (assertLos k s) :=
  (losPins_keeps s _).trans ((Keeps.updLane id id).trans ((Keeps.setLaneState ..).trans (.settle _)))

theorem releaseLos_keeps (k : LaneId) (s : State) : Keeps s (releaseLos k s) := by
  unfold releaseLos
  simp only
  split
  · exact (losPins_keeps s _).trans ((Keeps.restartContinuity ..).trans ((Keeps.setLaneState ..).trans (.settle _)))
  · exact losPins_keeps s _

/-! ### The inbound path (R44, R72 to R87) -/

@[simp] theorem inLine_updChan (s : State) (c : Chan) (f : Channel → Channel) (p : Place) : (s.updChan c f).inLine p = s.inLine p := by cases p <;> rfl
@[simp] theorem inLine_reportChan (c : Chan) (ks : KindSet) (s : State) (p : Place) : (reportChan c ks s).inLine p = s.inLine p := by
  rw [reportChan_eq]; cases p <;> rfl
@[simp] theorem inLine_countAtLane (p : Place) (ctr : LaneCtr) (s : State) : (countAtLane p ctr s).inLine p = s.inLine p := by
  cases p with
  | port n => rfl
  | lane k => simp [countAtLane, State.inLine]

theorem beginVerify_keeps (p : Place) (f : Frame) (own : Bool) (port : Option PortId) (x : Letter) (s : State) :
    Keeps s (beginVerify p f own port x s) :=
  (Keeps.updChan (.setIn_inFlight ..)).trans (.pushIn p rfl)

theorem selectFrame_keeps (p : Place) (f : Frame) (own : Bool) (port : Option PortId) (s : State) : Keeps s (selectFrame p f own port s) := by
  unfold selectFrame
  simp only
  split
  · split
    · exact .countAtLane ..
    · exact .countChan ..
  · split
    · exact beginVerify_keeps ..
    · split
      · exact .countChan ..
      · exact beginVerify_keeps ..

theorem routeManagement_keeps (p : Place) (f : Frame) (s : State) : Keeps s (routeManagement p f s) := by
  unfold routeManagement
  simp only
  split
  · exact .intakeClear ..
  · split
    · exact .countAgent ..
    · exact selectFrame_keeps ..

theorem steerAndSelect_keeps (k : LaneId) (f : Frame) (own : Bool) (s : State) : Keeps s (steerAndSelect k f own s) := by
  unfold steerAndSelect
  split
  · exact selectFrame_keeps ..
  · exact .countLane ..

theorem routeEnvelope_keeps (k : LaneId) (f : Frame) (fed : Bool) (s : State) : Keeps s (routeEnvelope k f fed s) := by
  unfold routeEnvelope
  simp only
  split
  · split
    · exact routeManagement_keeps ..
    · split
      · split
        · exact .pushIn _ rfl
        · exact .countLane ..
      · exact .countLane ..
  · split
    · exact selectFrame_keeps ..
    · split
      · split
        · exact steerAndSelect_keeps ..
        · exact .countLane ..
      · exact steerAndSelect_keeps ..

theorem receiveEnvelope_keeps (k : LaneId) (f : Frame) (s : State) : Keeps s (receiveEnvelope k f s) := by
  unfold receiveEnvelope
  split
  · exact .countLane ..
  · split
    · exact .countLane ..
    · exact routeEnvelope_keeps ..

theorem receiveClear_keeps (k : LaneId) (f : Frame) (s : State) : Keeps s (receiveClear k f s) := by
  unfold receiveClear
  split
  · exact (Keeps.pushIn _ rfl).trans (.startLookups ..)
  · exact .countLane ..

theorem returnFrame_keeps (k : LaneId) (f : Frame) (s : State) : Keeps s (returnFrame k f s) := by
  unfold returnFrame
  split
  · exact .countLane ..
  · rename_i hroom
    have hjoin : Keeps s (s.updLane k fun l => { l with returnQueue := l.returnQueue ++ [f] }) := by
      refine .updLane (fun h => ⟨?_, h.2⟩) id
      simp only [totalBytes_append]
      simpa [totalBytes, Config.returnCapacity] using hroom
    simp only
    split
    · exact hjoin.trans (receiveEnvelope_keeps ..)
    · exact hjoin

theorem receiveLine_keeps (k : LaneId) (f : Frame) (s : State) : Keeps s (receiveLine k f s) := by
  unfold receiveLine
  split
  · exact .countLane ..
  · split
    · exact receiveEnvelope_keeps ..
    · split
      · exact .countLane ..
      · split
        · exact .countLane ..
        · split
          · exact .countLane ..
          · exact receiveClear_keeps ..

theorem arriveLane_keeps (k : LaneId) (f : Frame) (s : State) : Keeps s (arriveLane k f s) := by
  have hcount : Keeps s ((s.countLane k .framesReceived).countLane k .octetsReceived f.length) := (Keeps.countLane ..).trans (.countLane ..)
  unfold arriveLane
  refine Keeps.trans ?_ (.settle _)
  split
  · exact hcount
  · split
    · exact hcount.trans (returnFrame_keeps ..)
    · exact hcount.trans (.countLane ..)
  · exact hcount.trans (receiveLine_keeps ..)

theorem actInbound_keeps {k : LaneId} {i : Nat} {f : Frame} {n : PortId} {r : Lookup} {s : State}
    (h : (s.lane k).inLine[i]? = some (.lookup f n r)) (v : Verdict) : Keeps s (actInbound k i f n v s) := by
  unfold actInbound
  split
  · exact .stageIn (p := .lane k) h rfl (fun e => by cases e)
  all_goals exact (Keeps.countLane ..).trans (.dropIn ..)

@[simp] theorem countHit_lane (r : Lookup) (s : State) (k : LaneId) : (countHit r s).lane k = s.lane k := by
  unfold countHit
  split
  · rfl
  · split <;> rfl

theorem endInboundLookup_keeps (k : LaneId) (s : State) : Keeps s (endInboundLookup k s) := by
  unfold endInboundLookup
  simp only
  split
  · rename_i f n r h
    refine (Keeps.countHit r s).trans (actInbound_keeps (r := r) ?_ _)
    rw [countHit_lane]; exact h
  · exact .refl s

theorem verifyFailed_keeps {p : Place} {i : Nat} {w v : Work} {f g : Frame} {own o : Bool} {q : Option PortId} {s : State}
    (h : (s.inLine p)[i]? = some (.verifying v g o q)) : Keeps s (verifyFailed p i w f own s) := by
  unfold verifyFailed
  generalize hs : (if own then countAtLane p .ownFailed s else reportChan w.chan (kindBit .authfail) (s.countChan w.chan .authFail)) = s1
  have hk : Keeps s s1 ∧ s1.inLine p = s.inLine p := by
    subst hs
    split
    · exact ⟨.countAtLane .., inLine_countAtLane ..⟩
    · exact ⟨(Keeps.countChan ..).trans (.reportChan ..), by simp⟩
  simp only
  split
  · refine hk.1.trans (.stageIn (a := .verifying v g o q) ?_ rfl (fun e => by cases e))
    rw [hk.2]; exact h
  · exact hk.1.trans (.dropIn ..)

/-- A frame that passes the final check is recorded and may promote its slot, which holds a key (R81, R84, R102). -/
theorem acceptFrame_keeps {w : Work} {s : State} (hstale : isStale w s = false)
    (hfresh : windowTest (s.chan w.chan).config.window ((s.chan w.chan).inSlot w.letter).top ((s.chan w.chan).inSlot w.letter).marks w.seq.toNat = .fresh) :
    Keeps s (acceptFrame w s) := by
  have hne : ((s.chan w.chan).inSlot w.letter).state ≠ .empty := by
    intro e; simp [isStale, e] at hstale
  exact (Keeps.updChan (f := fun _ => _) ((ChanKeeps.setIn_window hne hfresh).trans (.promote ..))).trans (.reportChan ..)

theorem inLine_acceptFrame (w : Work) (s : State) (p : Place) : (acceptFrame w s).inLine p = s.inLine p := by
  unfold acceptFrame; simp

theorem beginHandOn_keeps {p : Place} {i : Nat} {w : Work} {f g : Frame} {own o : Bool} {port q : Option PortId} {text : List Byte} {s : State}
    (h : (s.inLine p)[i]? = some (.verifying w g o q)) : Keeps s (beginHandOn p i w f own port text s) := by
  unfold beginHandOn
  simp only
  split
  · exact .stageIn h rfl (fun e => by cases e)
  · rename_i h0
    split
    · split
      · exact .stageIn h rfl (fun e => by cases e)
      · exact .stageIn h rfl (fun e => by cases e)
    · rename_i h1
      split
      · exact .dropIn ..
      · split
        · refine .stageIn h rfl (fun _ => ?_)
          have : w.chan.val ≠ 0 ∧ w.chan.val ≠ 1 := ⟨fun e => h0 (Fin.ext e), fun e => h1 (Fin.ext e)⟩
          simp only [mayLookUp, decide_eq_true_eq]; omega
        · exact .stageIn h rfl (fun e => by cases e)

theorem verifyGood_keeps {p : Place} {i : Nat} {w : Work} {f g : Frame} {own o : Bool} {port q : Option PortId} {text : List Byte} {s : State}
    (h : (s.inLine p)[i]? = some (.verifying w g o q)) : Keeps s (verifyGood p i w f own port text s) := by
  unfold verifyGood
  split
  · split
    · exact (Keeps.countAtLane ..).trans (.dropIn ..)
    · exact (Keeps.countChan ..).trans (.dropIn ..)
  · rename_i hstale
    split
    · exact beginHandOn_keeps h
    · simp only
      split
      · exact (Keeps.countChan ..).trans (.dropIn ..)
      · rename_i hnone
        refine (acceptFrame_keeps (by simpa using hstale) (windowCtr_none_iff.1 hnone)).trans (beginHandOn_keeps (g := g) (o := o) (q := q) ?_)
        rw [inLine_acceptFrame]; exact h

theorem completeVerify_keeps (p : Place) (i : Nat) (s : State) : Keeps s (completeVerify p i s) := by
  unfold completeVerify
  split
  · rename_i w f own port h
    have h1 : ((verifyCompleted w s).inLine p)[i]? = some (.verifying w f own port) := by rw [verifyCompleted, inLine_updChan]; exact h
    simp only
    refine (Keeps.verifyCompleted w s).trans (Keeps.trans ?_ ((Keeps.startLookups _ p).trans (.settle _)))
    split
    · exact verifyFailed_keeps h1
    · exact verifyGood_keeps h1
  · exact .refl s

theorem endReturnCheck_keeps (k : LaneId) (i : Nat) (s : State) : Keeps s (endReturnCheck k i s) := by
  unfold endReturnCheck
  split
  · exact .refl s
  · split
    · rename_i h
      split
      · exact .stageIn (p := .lane k) h rfl (fun e => by cases e)
      · exact (Keeps.countChan ..).trans (.dropIn ..)
    · exact .refl s

theorem handOn_keeps (p : Place) (h : HandOn) (s : State) : Keeps s (handOn p h s) := by
  unfold handOn
  split
  · have hcount := Keeps.countVerified p ‹Chan› ‹Nat› ‹Bool› s
    simp only
    split
    · exact hcount.trans (.deliver ..)
    · exact hcount.trans ((Keeps.countAtLane ..).trans (.deliver ..))
  · exact (Keeps.countAtLane ..).trans (.deliver ..)
  · exact (Keeps.countAtLane ..).trans (.deliver ..)
  · exact (Keeps.countVerified ..).trans (.takeRequest ..)
  · simp only
    split
    · exact (Keeps.countVerified ..).trans (.receiveBeacon ..)
    · exact .countVerified ..
  · simp only
    split
    · exact (Keeps.countVerified ..).trans (.judgeTest ..)
    · exact .countVerified ..
  · split
    · exact .judgeTest ..
    · exact .refl s

theorem handOnOldest_keeps (p : Place) (s : State) : Keeps s (handOnOldest p s) := by
  unfold handOnOldest
  split
  · exact (Keeps.dropIn ..).trans ((handOn_keeps ..).trans (.settle _))
  · exact .refl s

/-! ### The lane unit (R71, R122 to R129, R145, R146, R150) -/

theorem continuityExpired_keeps (k : LaneId) (s : State) : Keeps s (continuityExpired k s) := by
  have hstop : Keeps s (s.updLane k fun l => { l with continuity := none, peerRun := 0, loopRun := none }) := .updLane id id
  unfold continuityExpired
  simp only
  split
  · exact hstop.trans ((Keeps.countLane ..).trans ((Keeps.setLaneState ..).trans (.settle _)))
  · exact hstop.trans ((Keeps.countLane ..).trans ((Keeps.setLaneState ..).trans (.settle _)))
  · exact hstop
  · exact hstop

theorem generateBeacon_keeps (k : LaneId) (s : State) : Keeps s (generateBeacon k s) := by
  have ha := Keeps.assignSequence 1 (.unit k) s
  unfold generateBeacon
  split
  · rename_i heq; rw [heq] at ha; exact ha.trans (.countLane ..)
  · rename_i heq; rw [heq] at ha; exact ha.trans (.updLane id id)

theorem beaconExpired_keeps (k : LaneId) (s : State) : Keeps s (beaconExpired k s) := by
  unfold beaconExpired
  simp only
  split
  · exact .updLane id id
  · exact (Keeps.updLane id id).trans ((generateBeacon_keeps ..).trans (.settle _))

theorem generateTest_keeps (k : LaneId) (s : State) : Keeps s (generateTest k s) := by
  have ha := Keeps.assignSequence 1 (.unit k) s
  unfold generateTest
  split
  · rename_i heq; rw [heq] at ha; exact ha.trans (.countLane ..)
  · rename_i heq; rw [heq] at ha; exact ha.trans ((Keeps.countLane ..).trans (.updLane id id))

theorem rateExpired_keeps (k : LaneId) (s : State) : Keeps s (rateExpired k s) := by
  unfold rateExpired
  simp only
  split
  · exact (Keeps.updLane id id).trans (.countLane ..)
  · exact (Keeps.updLane id id).trans ((generateTest_keeps ..).trans (.settle _))

theorem offerUnit_keeps (k : LaneId) (kind : LinkKind) (env : Frame) (s : State) : Keeps s (offerUnit k kind env s) := by
  unfold offerUnit
  split
  · exact .countLane ..
  · rename_i q h
    exact (Keeps.updLane (offerControl_capacity h) id).trans ((Keeps.countChan ..).trans (.countChan ..))

theorem offerOldest_keeps (k : LaneId) (s : State) : Keeps s (offerOldest k s) := by
  unfold offerOldest
  split
  · exact (Keeps.updLane id id).trans (offerUnit_keeps ..)
  · exact .refl s

theorem beginTransmit_keeps (k : LaneId) (bytes : Frame) (source : TxSource) (s : State) : Keeps s (beginTransmit k bytes source s) := by
  have hbegin : Keeps s (((s.updLane k fun l => { l with tx := some { bytes, source } }).countLane k .framesSent).countLane k .octetsSent bytes.length) :=
    (Keeps.updLane id id).trans ((Keeps.countLane ..).trans (.countLane ..))
  unfold beginTransmit
  simp only
  split
  · exact hbegin.trans (.countLane ..)
  · exact hbegin.trans (.countLane ..)
  · exact hbegin

theorem judgeRemoval_lines (p : Port) :
    (judgeRemoval p).buffer = p.buffer ∧ (judgeRemoval p).queue = p.queue ∧ (judgeRemoval p).outLine = p.outLine := by
  unfold judgeRemoval endPause
  split
  · split <;> exact ⟨rfl, rfl, rfl⟩
  · exact ⟨rfl, rfl, rfl⟩

theorem judgeAppend_lines (p : Port) : (judgeAppend p).buffer = p.buffer ∧ (judgeAppend p).queue = p.queue ∧ (judgeAppend p).outLine = p.outLine := by
  unfold judgeAppend beginPause
  split <;> exact ⟨rfl, rfl, rfl⟩

theorem takeBuffer_keeps (k : LaneId) (s : State) : Keeps s (takeBuffer k s) := by
  unfold takeBuffer
  split
  · exact .refl s
  · rename_i n _
    split
    · exact .refl s
    · rename_i f rest hbuf
      refine Keeps.trans (.updPort ?_ ?_) (beginTransmit_keeps ..)
      · obtain ⟨hb, hq, -⟩ := judgeRemoval_lines { s.port n with buffer := rest }
        rw [removeHead, PortCapacity, PortCapacity, hb, hq, hbuf]
        exact fun h => ⟨(totalBytes_tail_le _ _).trans h.1, h.2⟩
      · obtain ⟨-, -, hl⟩ := judgeRemoval_lines { s.port n with buffer := rest }
        rw [removeHead, hl]; exact id

theorem takeReturned_keeps (k : LaneId) (s : State) : Keeps s (takeReturned k s) := by
  unfold takeReturned
  split
  · exact .refl s
  · rename_i f rest hq
    refine Keeps.trans (.updLane (fun h => ⟨?_, h.2⟩) id) (beginTransmit_keeps ..)
    have := h.1
    rw [hq] at this
    exact (totalBytes_tail_le f rest).trans this

theorem transmitNext_keeps (k : LaneId) (s : State) : Keeps s (transmitNext k s) := by
  unfold transmitNext
  split
  · exact takeReturned_keeps ..
  · split
    · rename_i rest h
      exact (Keeps.updLane (laneCapacity_control_sublist (takeControl_sublist h)) id).trans (beginTransmit_keeps ..)
    · exact takeBuffer_keeps ..

theorem endTransmit_keeps (k : LaneId) (s : State) : Keeps s (endTransmit k s) := by
  unfold endTransmit
  split
  · exact .refl s
  · have hidle : Keeps s (s.updLane k fun l => { l with tx := none }) := .updLane id id
    refine hidle.trans ?_
    unfold afterTransmit
    split
    · split
      · exact .coldReset _
      · exact .refl _
    · split
      · refine Keeps.trans ?_ (.settle _)
        split
        · exact .countLane ..
        · exact routeEnvelope_keeps ..
      · exact .refl _
    · exact .refl _

/-! ### The outbound path (R46, R58 to R69, R71, R108) -/

theorem consumeControl_keeps (n : PortId) (f : Frame) (s : State) : Keeps s (consumeControl n f s) := by
  unfold consumeControl
  split
  · exact .updPort id id
  · exact .countPort ..

theorem classify_keeps (n : PortId) (f : Frame) (s : State) : Keeps s (classify n f s) := by
  refine .updPort id fun h => outLineInOrder_push h fun r hr => ?_
  cases hr; exact beginLookup_gen ..

theorem receiveInner_keeps (n : PortId) (f : Frame) (s : State) : Keeps s (receiveInner n f s) := by
  unfold receiveInner
  split
  · exact .countPort ..
  · split
    · exact .countPort ..
    · split
      · exact .countPort ..
      · split
        · exact consumeControl_keeps ..
        · split
          · split
            · exact .countPort ..
            · split
              · exact (Keeps.countPort ..).trans (routeManagement_keeps ..)
              · exact classify_keeps ..
          · exact classify_keeps ..

theorem arriveInner_keeps (n : PortId) (f : Frame) (s : State) : Keeps s (arriveInner n f s) :=
  (Keeps.countPort ..).trans ((Keeps.countPort ..).trans ((receiveInner_keeps ..).trans (.settle _)))

theorem actOutbound_keeps (n : PortId) (i : Nat) (f : Frame) (v : Verdict) (s : State) : Keeps s (actOutbound n i f v s) := by
  unfold actOutbound
  split
  · rename_i c
    have ha := Keeps.assignSequence c (.port n) s
    split
    · rename_i heq; rw [heq] at ha
      exact ha.trans ((Keeps.countChan ..).trans ((Keeps.countPort ..).trans (.dropOut ..)))
    · rename_i heq; rw [heq] at ha
      exact ha.trans (.stageOut _ _ (fun r h => by cases h) _)
  · exact .stageOut _ _ (fun r h => by cases h) _
  all_goals exact (Keeps.countPort ..).trans (.dropOut ..)

theorem endOutboundLookup_keeps (n : PortId) (s : State) : Keeps s (endOutboundLookup n s) := by
  unfold endOutboundLookup
  simp only
  split
  · exact (Keeps.countHit ..).trans ((actOutbound_keeps ..).trans (.settle _))
  · exact .refl s

theorem completeTraffic_keeps (n : PortId) (i : Nat) (f : Frame) (w : Work) (h : Header) (s : State) : Keeps s (completeTraffic n i f w h s) := by
  unfold completeTraffic
  simp only
  split
  · exact (Keeps.slotCompleted w s).trans (.stageOut _ _ (fun r e => by cases e) _)
  · exact (Keeps.slotCompleted w s).trans ((Keeps.countChan ..).trans ((Keeps.countPort ..).trans (.dropOut ..)))

theorem completeUnit_keeps (k : LaneId) (i : Nat) (kind : LinkKind) (w : Work) (h : Header) (addr : Addr) (payload : List Byte) (s : State) :
    Keeps s (completeUnit k i kind w h addr payload s) := by
  unfold completeUnit
  simp only
  split
  · exact (Keeps.slotCompleted w s).trans (.updLane id id)
  · exact (Keeps.slotCompleted w s).trans ((Keeps.countChan ..).trans (.updLane id id))

theorem completeHand_keeps (hand : Hand) (w : Work) (h : Header) (da sa : Addr) (msg : List Byte) (s : State) :
    Keeps s (completeHand hand w h da sa msg s) := by
  unfold completeHand
  simp only
  split
  · exact (Keeps.slotCompleted w s).trans (.updAgent id id)
  · exact (Keeps.slotCompleted w s).trans ((Keeps.countChan ..).trans (.loseHand ..))

theorem completeProtect_keeps (o : Origin) (i : Nat) (s : State) : Keeps s (completeProtect o i s) := by
  unfold completeProtect
  split
  · split
    · exact (completeTraffic_keeps ..).trans (.settle _)
    · exact .refl s
  · split
    · exact (completeUnit_keeps ..).trans (.settle _)
    · exact .refl s
  · split
    · split
      · exact (completeHand_keeps ..).trans (.settle _)
      · exact .refl s
    · exact .refl s
  · exact .refl s

/-- A frame that enters its buffer leaves it within its capacity (R108). -/
theorem enterBuffer_capacity {f : BufFrame} {p q : Port} (h : enterBuffer f p = some q) :
    (PortCapacity p → PortCapacity q) ∧ q.outLine = p.outLine := by
  unfold enterBuffer at h
  split at h
  · cases h
  · rename_i hroom
    cases h
    obtain ⟨hb, hq, hl⟩ := judgeAppend_lines { p with buffer := p.buffer ++ [f] }
    refine ⟨?_, hl⟩
    rw [PortCapacity, PortCapacity, hb, hq]
    refine fun h => ⟨?_, h.2⟩
    simp only [List.map_append, totalBytes_append]
    simpa [totalBytes, bufOccupancy, Config.bufferCapacity] using hroom

theorem requestEntry_keeps (n : PortId) (f : BufFrame) {appended : State → State} (happ : ∀ t, Keeps t (appended t)) (s : State) :
    Keeps s (requestEntry n f appended s) := by
  unfold requestEntry
  split
  · exact .countPort ..
  · rename_i p h
    obtain ⟨hcap, hline⟩ := enterBuffer_capacity h
    exact (Keeps.updPort hcap (by rw [hline]; exact id)).trans (happ _)

theorem enterOldest_keeps (n : PortId) (s : State) : Keeps s (enterOldest n s) := by
  unfold enterOldest
  split
  · exact (Keeps.dropOut ..).trans (requestEntry_keeps _ _ (fun t => (Keeps.countChan ..).trans ((Keeps.countChan ..).trans (.countPort ..))) _)
  · exact (Keeps.dropOut ..).trans (requestEntry_keeps _ _ (fun t => .countPort ..) _)
  · exact .refl s

/-! ### Inner ports (R111 to R118) -/

theorem beginPauseFrame_keeps (n : PortId) (s : State) : Keeps s (beginPauseFrame n s) := by
  unfold beginPauseFrame
  simp only
  split
  · exact .refl s
  · exact .updPort id id
  · exact .updPort id id

theorem beginQueueFrame_keeps (n : PortId) (s : State) : Keeps s (beginQueueFrame n s) := by
  unfold beginQueueFrame
  split
  · exact .refl s
  · rename_i f rest hq
    refine .updPort (fun h => ⟨h.1, ?_⟩) id
    have := h.2
    rw [hq] at this
    exact (totalBytes_tail_le _ _).trans this

theorem endPortTransmit_keeps (n : PortId) (s : State) : Keeps s (endPortTransmit n s) := by
  unfold endPortTransmit
  split
  · exact .refl s
  · simp only
    split
    · exact (Keeps.updPort id id).trans (.coldReset _)
    · exact .updPort id id

theorem refreshExpired_keeps (n : PortId) (s : State) : Keeps s (s.updPort n refreshExpired) := by
  refine .updPort ?_ ?_
  · unfold refreshExpired; split <;> exact id
  · unfold refreshExpired; split <;> exact id

/-! ### Rollover and protection timers (R100, R103, R134) -/

theorem graceExpired_keeps {c : Chan} {x : Letter} {s : State} (h : graceDue s c x = true) : Keeps s (graceExpired c x s) := by
  have hf : ((s.chan c).inSlot x).state = .fading := by
    simp only [graceDue, Bool.and_eq_true, beq_iff_eq] at h; exact h.1
  exact (Keeps.updChan (.setIn_emptyIn (.inl (by simp [hf])))).trans ((Keeps.reportChan ..).trans (.settle _))

theorem scheduleFell_keeps (c : Chan) (s : State) : Keeps s (scheduleFell c s) :=
  (Keeps.updChan (.schedule ..)).trans ((scheduledSwitch_keeps ..).trans (.settle _))

theorem wtrExpired_keeps (s : State) : Keeps s (wtrExpired s) := (Keeps.updProt ..).trans ((Keeps.runArbiter _).trans (.settle _))

/-! ### The agent and operations that end (R54, R161, R174) -/

theorem handSent_keeps (kind : HandKind) (octets : Option Nat) (s : State) : Keeps s (handSent kind octets s) := by
  have hempty : Keeps s ((s.updAgent fun a => { a with hand := none }).countAgent (sentCtr kind)) := (Keeps.updAgent id id).trans (.countAgent ..)
  unfold handSent
  simp only
  split
  · exact hempty.trans ((Keeps.countChan ..).trans (.countChan ..))
  · exact hempty

theorem sendHand_keeps (place : Place) (kind : HandKind) (bytes : Frame) (octets : Option Nat) (s : State) :
    Keeps s (sendHand place kind bytes octets s) := by
  unfold sendHand
  split
  · split
    · rename_i h
      exact (Keeps.updLane (offerControl_capacity h) id).trans (handSent_keeps ..)
    · split
      · exact .loseHand ..
      · exact .refl s
  · simp only
    split
    · exact (Keeps.deliver ..).trans (handSent_keeps ..)
    · exact (Keeps.deliver ..).trans (.loseHand ..)

theorem senderOffers_keeps (s : State) : Keeps s (senderOffers s) := by
  unfold senderOffers
  split
  · split
    · exact (sendHand_keeps ..).trans (.settle _)
    · exact .refl s
  · exact .refl s

theorem moveCompleted_keeps (m : Move) (s : State) : Keeps s (moveCompleted m s) := by
  have hmove : Keeps s { s with move := none, shadow := moveEntries m s.shadow } := ⟨⟨id, id, id, id, id⟩, rfl, fun _ => id⟩
  exact hmove.trans ((endDirective_keeps ..).trans (.settle _))

theorem roleChanged_keeps (was : Option PortId) (s : State) : Keeps s (roleChanged was s) :=
  (Keeps.updProt ..).trans ((Keeps.switched (moveBridging_switched ..)).trans (.runArbiter _))

theorem refuseClear_keeps (s : State) : Keeps s (refuseClear s) := .updAgent (fun h => (List.length_filter_le ..).trans h) id

/-- The load of channel 0 looks at no part state. -/
theorem loadIfLocked_part (s : State) (p : PartState) : { loadIfLocked s with part := p } = loadIfLocked { s with part := p } := by
  have hcond : (lockBit { s with part := p } && s.pins.zeroizeHigh) = (lockBit s && s.pins.zeroizeHigh) := rfl
  simp only [loadIfLocked, hcond]
  split <;> rfl

/-- The effects of the burn of LOCK: channel 0 is emptied and loaded, the part is RUNNING (R174). -/
theorem lockBurned_keeps (s : State) : Keeps s (lockBurned s) := by
  unfold lockBurned
  simp only [loadIfLocked_part]
  generalize hs2 : (if (latchIdentity s).role = s.role then latchIdentity s else roleChanged (bridged s) (latchIdentity s)) = s2
  have hlatch : Keeps s (latchIdentity s) := ⟨⟨id, id, id, id, id⟩, rfl, fun _ => id⟩
  have h2 : Keeps s s2 := by
    subst hs2
    split
    · exact hlatch
    · exact hlatch.trans (roleChanged_keeps ..)
  have hclear : Keeps s (s2.updChan 0 emptySlots) := h2.trans (.updChan (.emptySlots _))
  have hzero : SlotsEmpty ((s2.updChan 0 emptySlots).chan 0) := by rw [State.updChan_chan_eq]; exact slotsEmpty_emptySlots _
  have hrun : Keeps s { s2.updChan 0 emptySlots with part := .running } :=
    ⟨⟨fun h => ⟨(hclear.rollover h).1, fun _ => hzero⟩, hclear.slots, hclear.capacity, hclear.lookups, fun _ => .inl rfl⟩, hclear.store, hclear.burn⟩
  exact (hrun.loadIfLocked (fun _ => hzero) rfl).trans (refuseClear_keeps _)

/-- The state right after the bit of burn `b` reads 1, before anything comes of it (R174). -/
def bitBurned (b : Burn) (s : State) : State := { s with store := burnBit s.store b.word b.bit, burn := none }

theorem bitBurned_conditions (b : Burn) (s : State) : KeepsConditions s (bitBurned b s) := ⟨id, id, id, id, id⟩

theorem burnCompleted_keeps (b : Burn) (s : State) : Keeps (bitBurned b s) (burnCompleted b s) := by
  unfold burnCompleted
  simp only
  refine Keeps.trans ?_ ((endDirective_keeps ..).trans (.settle _))
  split
  · exact lockBurned_keeps _
  · exact .refl _

/-! ### Every command -/

/-- From `s` to `t` the conditions are kept, on the store as it stands or after the bit of the burn under way reads 1 (R172, R174). -/
def StepKeeps (s t : State) : Prop := Keeps s t ∨ ∃ b, s.burn = some b ∧ Keeps (bitBurned b s) t

/-- A command that acts only on a condition. -/
theorem keeps_ite {s t : State} {p : Prop} [Decidable p] (h : p → Keeps s t) : Keeps s (if p then t else s) := by
  split
  · exact h ‹_›
  · exact .refl s

theorem keeps_ite_not {s t : State} {p : Prop} [Decidable p] (h : ¬ p → Keeps s t) : Keeps s (if p then s else t) := by
  split
  · exact .refl s
  · exact h ‹_›

theorem runnerTakeRequest_keeps (count : Nat) {s : State} (hb : blocked s = false) : Keeps s (runMany count (match s.agent.run with
      | none => takeOldest s
      | some _ => s)) := by
  split
  · exact (takeOldest_keeps hb).trans (runMany_keeps ((takeOldest_keeps hb).runner (.inl hb)) _)
  · exact runMany_keeps (.inl hb) _

/-- What every command can do: it answers a next state, and keeps the conditions. -/
theorem exec_keeps (i : Instr) (s : State) : ∃ t, exec i s = .next t ∧ StepKeeps s t := by
  have plain : ∀ {t}, Keeps s t → ∃ u, (Host.Outcome.next t : Step) = .next u ∧ StepKeeps s u := fun h => ⟨_, rfl, .inl h⟩
  cases i with
  | powerOn pins => exact plain (.of_isCold (coldReset_isCold pins { s with pins } rfl))
  | resetNAssert => exact plain (keeps_ite fun _ => .of_isCold (coldReset_isCold _ { s with pins := { s.pins with resetHigh := false } } rfl))
  | resetNRelease => exact plain (keeps_ite_not fun _ => releaseReset_keeps s)
  | selfCheckCompletion cipherOk tablesOk windowsOk => exact plain (endSelfCheck_keeps ..)
  | zeroizeNAssert => exact plain (keeps_ite fun _ => zeroizeAssert_keeps s)
  | zeroizeNRelease => exact plain (keeps_ite_not fun h => releaseZeroize_keeps (by simpa using h))
  | losAssert k => exact plain (keeps_ite_not fun _ => assertLos_keeps ..)
  | losRelease k => exact plain (keeps_ite fun _ => releaseLos_keeps ..)
  | innerFrameArrival n f beganBlocked => exact plain (keeps_ite_not fun _ => arriveInner_keeps ..)
  | outboundLookupEnd n => exact plain (endOutboundLookup_keeps ..)
  | protectCompletion o i => exact plain (completeProtect_keeps ..)
  | outboundBufferEntry n => exact plain (enterOldest_keeps ..)
  | laneFrameArrival k f beganBlocked => exact plain (keeps_ite_not fun _ => arriveLane_keeps ..)
  | inboundLookupEnd k => exact plain (endInboundLookup_keeps ..)
  | verifyCompletion p i => exact plain (completeVerify_keeps ..)
  | returnCheck k i => exact plain (endReturnCheck_keeps ..)
  | inboundHandOn p => exact plain (handOnOldest_keeps ..)
  | continuityTimerExpiry k => exact plain (keeps_ite fun _ => continuityExpired_keeps ..)
  | beaconTimerExpiry k => exact plain (keeps_ite fun _ => beaconExpired_keeps ..)
  | rateTimerExpiry k => exact plain (keeps_ite fun _ => rateExpired_keeps ..)
  | controlQueueOffer k => exact plain (offerOldest_keeps ..)
  | laneTransmitStart k => exact plain (keeps_ite_not fun _ => transmitNext_keeps ..)
  | laneTransmitEnd k => exact plain (endTransmit_keeps ..)
  | portTransmitPause n => exact plain (keeps_ite_not fun _ => beginPauseFrame_keeps ..)
  | portTransmitQueueFrame n => exact plain (keeps_ite_not fun _ => beginQueueFrame_keeps ..)
  | portTransmitEnd n => exact plain (endPortTransmit_keeps ..)
  | pauseRefreshExpiry n => exact plain (keeps_ite fun _ => refreshExpired_keeps ..)
  | pauseHoldExpiry n => exact plain (keeps_ite fun _ => .updPort id id)
  | graceExpiry c x => exact plain (keeps_ite fun h => graceExpired_keeps h)
  | scheduleDue c => exact plain (keeps_ite fun _ => scheduleFell_keeps ..)
  | wtrExpiry => exact plain (keeps_ite fun _ => wtrExpired_keeps s)
  | holdoffExpiry => exact plain (keeps_ite fun _ => (Keeps.updAgent id id).trans (.settle _))
  | runnerTakeRequest count => exact plain (keeps_ite_not fun h => runnerTakeRequest_keeps count (by simpa using h))
  | senderSend => exact plain (senderOffers_keeps s)
  | restartTimeout => exact plain (keeps_ite fun _ => .coldReset s)
  | ruleMoveCompletion =>
    refine plain ?_
    split
    · exact moveCompleted_keeps ..
    · exact .refl s
  | idBurnCompletion =>
    refine ⟨_, rfl, ?_⟩
    split
    · rename_i b hb
      split
      · exact .inr ⟨b, hb, burnCompleted_keeps b s⟩
      · exact .inl (.refl s)
    · exact .inl (.refl s)
  | timeCounterCount => exact plain (keeps_ite fun _ => ⟨⟨id, id, id, id, id⟩, rfl, fun _ => id⟩)
  | chanOpen ops | chanSet ops | chanClose ops | chanRead ops | keyStage ops | keyCommit ops | keyErase ops | switchNow ops | switchAt ops
  | switchCancel ops | timeRead ops | ruleWrite ops | rulePatch ops | ruleClear ops | ruleRead ops | ruleMove ops | tableCommit ops
  | tableRevert ops | portSet ops | laneSet ops | loopSet ops | testSet ops | testInject ops | countSweep ops | portCounts ops | statusRead ops
  | noticeMask ops | idRead ops | idBurn ops | zeroize ops | restart ops => exact plain (takeDirective_keeps ..)

/-! ### Every step -/

/-- What every step can do. -/
theorem step_keeps {s t : State} (h : step s = .next t) : StepKeeps s t := by
  unfold step at h
  split at h
  · cases h; exact .inl (.refl s)
  · rename_i c rest _
    obtain ⟨u, hu, hk⟩ := exec_keeps c { s with pending := rest }
    rw [hu] at h
    cases h
    have hrest : ∀ u : State, Keeps { u with pending := s.pending } { u with pending := rest } := fun _ => ⟨⟨id, id, id, id, id⟩, rfl, fun _ => id⟩
    rcases hk with hk | ⟨b, hb, hk⟩
    · exact .inl ((hrest s).trans hk)
    · exact .inr ⟨b, hb, (hrest (bitBurned b s)).trans hk⟩

theorem step_keepsConditions {s t : State} (h : step s = .next t) : KeepsConditions s t := by
  rcases step_keeps h with hk | ⟨b, -, hk⟩
  · exact hk.toKeepsConditions
  · exact (bitBurned_conditions b s).trans hk.toKeepsConditions

/-- A burned bit joins the others of its word (R174). -/
theorem burnBit_keeps_bits {st : Store} {w : Fin 32} {b : Nat} (h : st[w].getLsbD b = true) (v : Fin 32) (i : Fin 16) :
    (burnBit st v i)[w].getLsbD b = true := by
  by_cases hw : w = v
  · subst hw; simp only [burnBit, Fin.getElem_fin, Vector.getElem_set_self] at h ⊢; simp [h]
  · have hne : v.val ≠ w.val := fun e => hw (Fin.ext e.symm)
    simp only [burnBit, Fin.getElem_fin] at h ⊢; rw [Vector.getElem_set_ne _ _ hne]; exact h

/-! ### The statements -/

/-- Settles O56: one condition that every command keeps. -/
theorem stepKeepsRollover : Obligations.StepKeepsRollover := fun _ _ hs h => (step_keepsConditions h).rollover hs

/-- Settles O57: one condition that every command keeps. -/
theorem stepKeepsSlots : Obligations.StepKeepsSlots := fun _ _ hs h => (step_keepsConditions h).slots hs

/-- Settles O58: two conditions that every command keeps. -/
theorem stepKeepsQueues : Obligations.StepKeepsQueues :=
  ⟨fun _ _ hs h => (step_keepsConditions h).capacity hs, fun _ _ hs h => (step_keepsConditions h).lookups hs⟩

/-- Settles O59: the store is written by the end of a burn alone, and a burn begins on an unlocked part alone. -/
theorem storeBitsOnlyRise : Obligations.StoreBitsOnlyRise := by
  intro s t h
  rcases step_keeps h with hk | ⟨b, hb, hk⟩
  · exact ⟨fun w i hbit => by rw [hk.store]; exact hbit, fun hnone => ⟨hk.store, fun hl => hk.burn hl hnone⟩⟩
  · refine ⟨fun w i hbit => ?_, fun hnone => by rw [hb] at hnone; cases hnone⟩
    rw [hk.store]
    exact burnBit_keeps_bits hbit ..

end Sys2Proof.Kept
end

section
/-! The statement on the classifier's lookup: what an entry admits, test by test, and the first entry of the bank that admits the frame. -/

namespace Sys2Proof.Lookups
open Sys2Proof.Machine Sys2Proof.Safety

/-! ### The tests of an entry (R42) -/

theorem directionAdmits_iff (d : Direction) (u : Use) :
    directionAdmits d u = true ↔ d = .both ∨ d = .out ∧ u = .outbound ∨ d = .inb ∧ u = .inbound := by
  cases d <;> cases u <;> simp [directionAdmits]

/-- The VLAN test, with the tag of the inner bytes given. -/
theorem vlanAdmits_iff (m : VlanMatch) (inner : List Byte) : vlanAdmits m inner = true ↔
    m = .any ∨ m = .untagged ∧ vlanOf inner = none ∨ ∃ lo hi v, vlanOf inner = some v ∧ m = .range lo hi ∧ lo.toNat ≤ v.toNat ∧ v.toNat ≤ hi.toNat := by
  cases m with
  | untagged => simp [vlanAdmits]
  | any => simp [vlanAdmits]
  | range lo hi => cases hv : vlanOf inner <;> simp [vlanAdmits, hv, BitVec.le_def]

theorem typeAdmits_iff (t : Option (BitVec 16)) (inner : List Byte) : typeAdmits t inner = true ↔ t = none ∨ t = some (typeOf inner) := by
  cases t with
  | none => simp [typeAdmits]
  | some t => simp only [typeAdmits, beq_iff_eq, reduceCtorEq, Option.some.injEq, false_or]; exact eq_comm

theorem entryMatches_iff (e : Entry) (u : Use) (pos : PortId) (inner : List Byte) : entryMatches e u pos inner = true ↔
    e.valid = true ∧ directionAdmits e.direction u = true ∧ e.ports.getLsbD pos.val = true ∧ vlanAdmits e.vlan inner = true ∧
    typeAdmits e.etype inner = true := by
  simp [entryMatches, and_assoc]

/-! ### The tag of inner bytes (R41) -/

theorem vlanOf_tagged {inner : List Byte} (h : word16 inner 0 = 0x8100) : vlanOf inner = some ((word16 inner 2).setWidth 12) := if_pos h

theorem vlanOf_untagged {inner : List Byte} (h : word16 inner 0 ≠ 0x8100) : vlanOf inner = none := if_neg h

theorem typeOf_tagged {inner : List Byte} (h : word16 inner 0 = 0x8100) : typeOf inner = word16 inner 4 := if_pos h

theorem typeOf_untagged {inner : List Byte} (h : word16 inner 0 ≠ 0x8100) : typeOf inner = word16 inner 0 := if_neg h

/-! ### NO-BYPASS (R45) -/

theorem bypassExcepted_eq (inner : List Byte) :
    bypassExcepted inner = (word16 inner 0 == 0x9A3C && (word16 inner 4).toNat % 1024 == 0) := by
  have hchan : ((word16 inner 4).extractLsb' 0 10 == 0) = ((word16 inner 4).toNat % 1024 == 0) := by
    rw [Bool.eq_iff_iff, beq_iff_eq, beq_iff_eq, BitVec.toNat_eq]
    simp
  rw [bypassExcepted, hchan]; rfl

/-! ### The statement -/

/-- Settles O8: the tests one by one, then the first entry of the scan. -/
theorem lookupFirstMatchWins : Obligations.LookupFirstMatchWins := by
  refine ⟨fun e u pos inner tagged v type htag hv hyes hno => ?_, fun s u pos inner => ?_⟩
  · rw [entryMatches_iff, directionAdmits_iff, vlanAdmits_iff, typeAdmits_iff]
    by_cases ht : tagged
    · have hw := htag.1 ht
      have hvlan : (word16 inner 2).setWidth 12 = v := BitVec.eq_of_toNat_eq (by rw [hv, BitVec.toNat_setWidth])
      simp only [vlanOf_tagged hw, typeOf_tagged hw, hyes ht, hvlan, ht, reduceCtorEq, Option.some.injEq, not_true_eq_false, and_false, true_and,
        exists_eq_left']
    · have hw : word16 inner 0 ≠ 0x8100 := fun k => ht (htag.2 k)
      simp only [vlanOf_untagged hw, typeOf_untagged hw, hno ht, ht, reduceCtorEq, not_false_eq_true, and_true, false_and, and_false, exists_false]
  · rcases beginLookup_spec s u pos inner with ⟨hnone, hhit, hverdict⟩ | ⟨i, hi, hfirst, hhit, hverdict⟩
    · rw [hhit]
      refine ⟨fun i => ⟨fun h => (by cases h), fun h => ?_⟩, ⟨fun _ => hnone, fun _ => rfl⟩, fun _ => hverdict, fun i h => (by cases h)⟩
      rw [hnone i] at h; cases h.1
    · rw [hhit, hverdict]
      have honly : ∀ j : Fin 256, some i = some j ↔
          entryMatches s.active[j] u pos inner = true ∧ ∀ k : Fin 256, k < j → entryMatches s.active[k] u pos inner = false := by
        refine fun j => ⟨fun h => by cases h; exact ⟨hi, hfirst⟩, fun ⟨hj, hbefore⟩ => ?_⟩
        rcases lt_trichotomy i j with h | h | h
        · rw [hbefore i h] at hi; cases hi
        · rw [h]
        · rw [hfirst j h] at hj; cases hj
      refine ⟨honly, ⟨fun h => (by cases h), fun h => (by rw [h i] at hi; cases hi)⟩, fun h => (by cases h), fun j hj => ?_⟩
      cases hj
      rw [← bypassExcepted_eq]
      cases s.active[i].action <;> rfl

end Sys2Proof.Lookups
end

section
/-! The statements on the slots of a channel: the answer to a request for a sequence, the outbound switch, and the replay window. -/

namespace Sys2Proof.Slots
open Sys2Proof.Machine Sys2Proof.Safety

/-! ### The slot in service (R93) -/

theorem other_of_ne {x y : Letter} (h : y ≠ x) : y = x.other := by
  revert h; cases x <;> cases y <;> decide

/-- One slot in service at most, said of any letter. -/
theorem not_both_inService {ch : Channel} (h : ¬ (inService ch.outA ∧ inService ch.outB)) (x : Letter) :
    ¬ (inService (ch.outSlot x) ∧ inService (ch.outSlot x.other)) := by
  cases x
  · exact h
  · exact fun k => h k.symm

/-- A request for a sequence on a record whose one slot in service is `x`. -/
theorem sequenceAnswer_inService {ch : Channel} {x : Letter} (hr : ¬ (inService ch.outA ∧ inService ch.outB)) (hopen : ch.isOpen = true)
    (h : inService (ch.outSlot x)) : sequenceAnswer ch = match (ch.outSlot x).state, (ch.outSlot x).next with
      | .live, .seq n => .assigned x (ch.outSlot x) n
      | _, _ => .refused .droppedHalted := by
  unfold sequenceAnswer
  rw [hopen, oldSlot_of_inService hr h]
  rfl

theorem assignSequence_refused {c : Chan} {s : State} {ctr : ChanCtr} (h : sequenceAnswer (s.chan c) = .refused ctr) (o : Origin) :
    assignSequence c o s = (.inl ctr, s) := by
  unfold assignSequence; rw [h]

theorem assignSequence_assigned {c : Chan} {s : State} {x : Letter} {slot : OutSlot} {n : Seq} (h : sequenceAnswer (s.chan c) = .assigned x slot n)
    (o : Origin) : assignSequence c o s =
      (.inr ({ origin := o, op := .protect, chan := c, letter := x, load := slot.load, seq := n, key := slot.key, salt := slot.salt }, slot.epoch.getD 0),
        reportChan c (assignFrom s.time (s.chan c) x n).2 (s.updChan c fun _ => (assignFrom s.time (s.chan c) x n).1)) := by
  unfold assignSequence; rw [h]

/-! ### Channel kinds (R165) -/

theorem addKinds_ite {last : Bool} (c : Chan) (k : KindSet) (fifo : List (Chan × KindSet)) (hk : k ≠ 0) :
    (if (if last then k else 0) = 0 then fifo else addKinds c (if last then k else 0) fifo) = if last then addKinds c k fifo else fifo := by
  cases last with
  | false => rfl
  | true => exact if_neg hk

theorem kinds_soft_ne_zero (last : Bool) : ((if last then kindBit .halted else 0) ||| kindBit .soft : KindSet) ≠ 0 := by cases last <;> decide

theorem kinds_soft_switched_ne_zero (last : Bool) :
    ((if last then kindBit .halted else 0) ||| kindBit .soft ||| kindBit .switched : KindSet) ≠ 0 := by cases last <;> decide

/-! ### Sequence assignment -/

/-- Settles O9: the answer by the slot in service, then the three ways an assignment ends. -/
theorem sequenceAnswered : Obligations.SequenceAnswered := by
  intro c o s hr
  obtain ⟨hboth, -⟩ := hr
  refine ⟨fun h => ?_, fun x hopen hex => ?_, fun x q hopen hlive hnext => ?_⟩
  · refine assignSequence_refused ?_ o
    rcases h with h | h
    · simp [sequenceAnswer, h]
    · simp [sequenceAnswer, oldSlot_none h]
  · refine assignSequence_refused ?_ o
    rw [sequenceAnswer_inService hboth hopen (.inr hex), hex]
  · have hanswer : sequenceAnswer (s.chan c) = .assigned x ((s.chan c).outSlot x) q := by
      rw [sequenceAnswer_inService hboth hopen (.inl hlive), hlive, hnext]
    have hchan : ∀ a : Channel × KindSet, (reportChan c a.2 (s.updChan c fun _ => a.1)).chan c = a.1 := fun a => by
      rw [reportChan_chan, State.updChan_chan_eq]
    have hfifo : ∀ a : Channel × KindSet, (reportChan c a.2 (s.updChan c fun _ => a.1)).agent.fifo =
        if a.2 = 0 then s.agent.fifo else addKinds c a.2 s.agent.fifo := fun a => by rw [reportChan_eq]; rfl
    refine ⟨_, _, assignSequence_assigned hanswer o, fun e he => by rw [he]; rfl, ?_, fun d hd => ?_, ?_, ?_, _, rfl, fun hq => ?_, fun hq hs hsw => ?_,
      fun hq hs ha hl he => ?_⟩
    · rw [hchan]
      by_cases hsoft : q.toNat ≠ (s.chan c).config.softLimit ∨ ((s.chan c).outSlot x).softHit = true
      · simp [assignFrom_plain hsoft, takeSequence_live hlive]
      · rw [not_or, not_not, Bool.not_eq_true] at hsoft
        rw [assignFrom_soft hboth hlive hsoft.1 hsoft.2]
        split <;> simp [takeSequence_live hlive]
    · rw [reportChan_chan, State.updChan_chan, if_neg hd]
    · rw [reportChan_eq]; rfl
    · rw [reportChan_eq]; rfl
    · rw [hchan, hfifo, assignFrom_plain hq, takeSequence_live hlive]
      refine ⟨by simp, ?_⟩
      have := addKinds_ite (last := decide (q.toNat = 2 ^ 48 - 1)) c (kindBit .halted) s.agent.fifo (kindBit_ne_zero _)
      simpa using this
    · rw [hchan, hfifo, assignFrom_soft hboth hlive hq hs, if_neg (by rintro ⟨h1, h2, h3⟩; rcases hsw with h | h | h <;> simp_all), takeSequence_live hlive]
      refine ⟨by simp, ?_⟩
      have := kinds_soft_ne_zero (decide (q.toNat = 2 ^ 48 - 1))
      simp only [decide_eq_true_eq] at this ⊢
      rw [if_neg this]
    · rw [hchan, hfifo, assignFrom_soft hboth hlive hq hs, if_pos ⟨ha, hl, he⟩, takeSequence_live hlive]
      refine ⟨by simp, by simp, ?_⟩
      have := kinds_soft_switched_ne_zero (decide (q.toNat = 2 ^ 48 - 1))
      simp only [decide_eq_true_eq] at this ⊢
      rw [if_neg this]

/-! ### The outbound switch (R93, R94) -/

/-- Two slots written, one of each letter: a record with other outbound slots and nothing else. -/
theorem setOut_frame (ch : Channel) (x y : Letter) (o p : OutSlot) :
    (ch.setOut x o).setOut y p = { ch with outA := ((ch.setOut x o).setOut y p).outA, outB := ((ch.setOut x o).setOut y p).outB } := by
  cases x <;> cases y <;> rfl

theorem switchMade_of_old {ch : Channel} {x : Letter} (h : oldSlot ch = some x) : switchMade ch = true ↔
    (ch.outSlot x.other).state = .loaded ∧ (ch.outSlot x.other).epoch ≠ (ch.outSlot x).epoch := by
  simp [switchMade, switchTarget, h]

theorem switchMade_of_none {ch : Channel} (h : oldSlot ch = none) : switchMade ch = true ↔ ∃ x, (ch.outSlot x).state = .loaded := by
  simp only [switchMade, switchTarget, h, Bool.and_true, decide_eq_true_eq]
  constructor
  · exact fun k => ⟨_, k⟩
  · rintro ⟨x, hx⟩
    by_cases ha : ch.outA.state = .loaded
    · rw [if_pos ha]; exact ha
    · rw [if_neg ha]
      cases x
      · exact absurd hx ha
      · exact hx

/-- What `makeSwitch` makes of the record when slot `x` leaves service. -/
theorem makeSwitch_of_old {ch : Channel} {x : Letter} (h : oldSlot ch = some x) (now : Time) :
    switchTarget ch = x.other ∧
    makeSwitch now ch = (ch.setOut x (retire (ch.outSlot x))).setOut x.other { ch.outSlot x.other with state := .live, switchTime := some now } := by
  have ht : switchTarget ch = x.other := by simp [switchTarget, h]
  exact ⟨ht, by simp [makeSwitch, h, ht]⟩

theorem makeSwitch_of_none {ch : Channel} (h : oldSlot ch = none) (now : Time) :
    makeSwitch now ch = ch.setOut (switchTarget ch) { ch.outSlot (switchTarget ch) with state := .live, switchTime := some now } := by
  simp [makeSwitch, h]

theorem retire_inFlight {o : OutSlot} (h : 0 < o.inFlight) : retire o = { o with state := .draining } := if_pos h

theorem retire_idle {o : OutSlot} (h : o.inFlight = 0) : retire o = emptyOut o := if_neg (by omega)

/-- Settles O31: by whether a slot is in service. -/
theorem switchRule : Obligations.SwitchRule := by
  intro now ch hboth
  cases hold : oldSlot ch with
  | none =>
    have hnone := Kept.not_inService_of_oldSlot_none hold
    refine ⟨?_, fun hmade => ⟨switchTarget ch, _, rfl, rfl, Kept.switchTarget_loaded hmade, ?_⟩⟩
    · rw [switchMade_of_none hold]
      exact ⟨fun h => .inr ⟨hnone, h⟩, fun h => h.elim (fun ⟨x, hx, _⟩ => absurd hx (hnone x)) And.right⟩
    · rw [makeSwitch_of_none hold]
      refine ⟨by simp, by cases switchTarget ch <;> rfl, fun _ => ⟨by simp, fun ha => by simp [switchTarget, hold, ha]⟩, fun h => absurd h (hnone _),
        fun h => absurd h (hnone _), fun x hx => ?_⟩
      by_contra hne
      rw [Channel.outSlot_setOut, if_neg hne] at hx
      exact hnone x hx
  | some x =>
    have hx := oldSlot_inService hold
    have hpair := not_both_inService hboth x
    refine ⟨?_, fun hmade => ⟨x.other, _, rfl, (makeSwitch_of_old hold now).1.symm, ((switchMade_of_old hold).1 hmade).1, ?_⟩⟩
    · rw [switchMade_of_old hold]
      refine ⟨fun h => .inl ⟨x, hx, h⟩, fun h => ?_⟩
      rcases h with ⟨y, hy, h⟩ | ⟨h, -⟩
      · by_cases hyx : y = x
        · subst hyx; exact h
        · rw [other_of_ne hyx] at hy; exact absurd ⟨hx, hy⟩ hpair
      · exact absurd hx (h x)
    · rw [(makeSwitch_of_old hold now).2, Letter.other_other]
      refine ⟨by simp, setOut_frame .., fun h => absurd hx (h x), fun _ hf => by simp [retire_inFlight hf], fun _ hf => ?_, fun y hy => ?_⟩
      · simp only [Channel.outSlot_setOut, Letter.ne_other, if_false, if_true, retire_idle hf]
        exact ⟨Kept.outCleared_emptyOut _, rfl, hf⟩
      · by_contra hne
        have hyx : y = x := by have := other_of_ne hne; rwa [Letter.other_other] at this
        subst hyx
        simp only [Channel.outSlot_setOut, Letter.ne_other, if_false, if_true] at hy
        exact Kept.not_inService_retire _ hy

/-! ### The replay window (R80, R81) -/

theorem windowTest_fresh_of_zero {w top q : Nat} {marks : List Nat} (h : w = 0) : windowTest w top marks q = .fresh := if_pos h

theorem windowTest_of_lt {w top q : Nat} {marks : List Nat} (h : top < q) : windowTest w top marks q = .fresh := by
  by_cases hw : w = 0
  · exact if_pos hw
  · rw [windowTest, if_neg hw, if_pos h]

theorem windowTest_late {w top q : Nat} {marks : List Nat} (hw : 0 < w) (h : q + w ≤ top) : windowTest w top marks q = .late := by
  unfold windowTest; rw [if_neg (by omega), if_neg (by omega), if_pos h]

theorem windowTest_inside {w top q : Nat} {marks : List Nat} (hle : q ≤ top) (hlt : top < q + w) :
    windowTest w top marks q = if q ∈ marks then .replay else .fresh := by
  unfold windowTest
  rw [if_neg (by omega), if_neg (by omega), if_neg (by omega)]
  simp

theorem windowUpdate_top (w top : Nat) (marks : List Nat) (q : Nat) : (windowUpdate w top marks q).1 = max top q := by
  unfold windowUpdate; split
  · rfl
  · split
    · simp only; omega
    · simp only; omega

/-- The marks after an update, under a window that tests: the new one, and those of before that are still within W of the top. -/
theorem windowUpdate_mem {w top q m : Nat} {marks : List Nat} (hw : 0 < w) (hm : ∀ m ∈ marks, m ≤ top ∧ top < m + w) :
    m ∈ (windowUpdate w top marks q).2 ↔ m = q ∨ m ∈ marks ∧ max top q < m + w := by
  unfold windowUpdate
  rw [if_neg (by omega)]
  by_cases hq : top < q
  · rw [if_pos hq, max_eq_right hq.le, List.mem_append, List.mem_singleton, or_comm]
    refine or_congr_right ?_
    split
    · rename_i hfar
      refine ⟨fun h => (by cases h), fun ⟨h, h'⟩ => ?_⟩
      have := (hm m h).1; omega
    · rw [List.mem_filter, decide_eq_true_eq]
  · rw [if_neg hq, max_eq_left (by omega), insertMark_mem]
    exact or_congr_right ⟨fun h => ⟨h, (hm m h).2⟩, And.left⟩

/-- Sequence `q` is behind a window or marked in it. -/
def Recorded (w q : Nat) (u : Nat × List Nat) : Prop := q ≤ u.1 ∧ (u.1 < q + w → q ∈ u.2)

theorem recorded_not_fresh {w q : Nat} {u : Nat × List Nat} (hw : 0 < w) (h : Recorded w q u) : windowTest w u.1 u.2 q ≠ .fresh := by
  by_cases hin : u.1 < q + w
  · rw [windowTest_inside h.1 hin, if_pos (h.2 hin)]; simp
  · rw [windowTest_late hw (by omega)]; simp

/-- An update records its own sequence. -/
theorem recorded_self {w top q : Nat} {marks : List Nat} (hw : 0 < w) : Recorded w q (windowUpdate w top marks q) := by
  refine ⟨by rw [windowUpdate_top]; exact le_max_right .., fun _ => ?_⟩
  unfold windowUpdate
  rw [if_neg (by omega)]
  split
  · simp
  · simp [insertMark_mem]

/-- An update forgets no sequence that it does not leave behind. -/
theorem recorded_update {w q : Nat} {u : Nat × List Nat} (hw : 0 < w) (h : Recorded w q u) (r : Nat) : Recorded w q (windowUpdate w u.1 u.2 r) := by
  obtain ⟨hle, hmark⟩ := h
  rw [Recorded, windowUpdate_top]
  refine ⟨hle.trans (le_max_left ..), fun hin => ?_⟩
  have hq : q ∈ u.2 := hmark (lt_of_le_of_lt (le_max_left ..) hin)
  have hr : r < q + w := lt_of_le_of_lt (le_max_right ..) hin
  unfold windowUpdate
  rw [if_neg (by omega)]
  split
  · rw [if_neg (by omega), List.mem_append, List.mem_filter, decide_eq_true_eq]
    exact .inl ⟨hq, hr⟩
  · rw [insertMark_mem]; exact .inr hq

/-- Settles O17: a recorded sequence stays recorded under every later update. -/
theorem noSequenceTwice : Obligations.NoSequenceTwice := by
  refine ⟨fun w top marks q => ⟨windowTest_fresh_of_zero, fun _ => windowTest_of_lt, fun _ h1 h2 h => ?_, fun _ h1 h2 h => ?_, windowTest_late⟩,
    fun w top marks q new hnew hsorted hmarks => ?_, fun w top marks q later hw _ => ?_⟩
  · rw [windowTest_inside h1 h2, if_pos h]
  · rw [windowTest_inside h1 h2, if_neg h]
  · subst hnew
    refine ⟨windowUpdate_top .., fun h => by simp [windowUpdate, h], fun hw m => windowUpdate_mem hw hmarks, ?_⟩
    unfold windowUpdate
    split
    · exact .nil
    · split
      · rename_i hq
        have hkept : (if q - top ≥ w then [] else marks.filter (fun m => q < m + w)).Sublist marks := by
          split
          · exact List.nil_sublist _
          · exact List.filter_sublist
        refine List.pairwise_append.2 ⟨hsorted.sublist hkept, List.pairwise_singleton .., fun m hm y hy => ?_⟩
        rw [List.mem_singleton.1 hy]
        exact lt_of_le_of_lt (hmarks m (hkept.subset hm)).1 hq
      · exact insertMark_pairwise q _ hsorted
  · refine recorded_not_fresh hw ?_
    have hstep : ∀ (later : List Nat) (u : Nat × List Nat), Recorded w q u →
        Recorded w q (later.foldl (fun u r => if windowTest w u.1 u.2 r = .fresh then windowUpdate w u.1 u.2 r else u) u) := by
      intro later
      induction later with
      | nil => exact fun _ h => h
      | cons r later ih =>
        refine fun u h => ih _ ?_
        beta_reduce
        split
        · exact recorded_update hw h r
        · exact h
    exact hstep later _ (recorded_self hw)

end Sys2Proof.Slots
end

section
/-! The statement on the outcomes of directives: a refusal changes nothing, and what a DONE one carries is as long as the budget test counted. -/

namespace Sys2Proof.Outcomes
open Sys2Proof.Machine Sys2Proof.Safety

/-- A directive that answers from `s` changes nothing unless it ends DONE, and then carries `n` bytes. -/
def OutcomeOk (n : Nat) (s : State) : DirResult → Prop
  | .ended o data t => (o ≠ .done → t = s ∧ data = []) ∧ (o = .done → data.length = n)
  | .begun _ => True

theorem OutcomeOk.refused {o : DirOutcome} (h : o ≠ .done) (n : Nat) (s : State) : OutcomeOk n s (dirRefused o s) :=
  ⟨fun _ => ⟨rfl, rfl⟩, fun e => absurd e h⟩

theorem OutcomeOk.format (n : Nat) (s : State) : OutcomeOk n s (dirRefused .format s) := .refused (by decide) n s
theorem OutcomeOk.range (n : Nat) (s : State) : OutcomeOk n s (dirRefused .range s) := .refused (by decide) n s
theorem OutcomeOk.state (n : Nat) (s : State) : OutcomeOk n s (dirRefused .state s) := .refused (by decide) n s
theorem OutcomeOk.locked (n : Nat) (s : State) : OutcomeOk n s (dirRefused .locked s) := .refused (by decide) n s
theorem OutcomeOk.busy (n : Nat) (s : State) : OutcomeOk n s (dirRefused .busy s) := .refused (by decide) n s

theorem OutcomeOk.done {n : Nat} {data : List Byte} (h : data.length = n) (s t : State) : OutcomeOk n s (dirDone data t) :=
  ⟨fun e => absurd rfl e, fun _ => h⟩

theorem OutcomeOk.begun (n : Nat) (s t : State) : OutcomeOk n s (.begun t) := trivial

/-! ### Lengths of data (12.4) -/

@[simp] theorem configBytes_length (c : ChanConfig) : (configBytes c).length = 12 := by simp [configBytes]
@[simp] theorem timeOrOnes_length (t : Option Time) : (timeOrOnes t).length = 8 := by cases t <;> simp [timeOrOnes]
@[simp] theorem timeOrZero_length (t : Option Time) : (timeOrZero t).length = 8 := by cases t <;> simp [timeOrZero]
@[simp] theorem outSlotBytes_length (o : OutSlot) : (outSlotBytes o).length = 27 := by simp [outSlotBytes]
@[simp] theorem inSlotBytes_length (now : Time) (i : InSlot) : (inSlotBytes now i).length = 33 := by simp [inSlotBytes]
@[simp] theorem counterBytes_length {n : Nat} (v : Vector Counter n) : (counterBytes v).length = 6 * n := by
  simp [counterBytes, List.length_flatMap, Nat.mul_comm]
@[simp] theorem chanReadBytes_length (now : Time) (ch : Channel) : (chanReadBytes now ch).length = 219 := by simp [chanReadBytes]
@[simp] theorem portSetBytes_length (n : PortId) (p : Port) : (portSetBytes n p).length = 10 := by simp [portSetBytes]
@[simp] theorem laneSetBytes_length (p : Protection) : (laneSetBytes p).length = 8 := by simp [laneSetBytes]
@[simp] theorem loopSetBytes_length (k : LaneId) (l : Lane) : (loopSetBytes k l).length = 14 := by simp [loopSetBytes]
@[simp] theorem testSetBytes_length (k : LaneId) (l : Lane) : (testSetBytes k l).length = 8 := by simp [testSetBytes]
@[simp] theorem vlanBytes_length (m : VlanMatch) : (vlanBytes m).length = 5 := by cases m <;> simp [vlanBytes]
@[simp] theorem actionBytes_length (a : Action) : (actionBytes a).length = 3 := by cases a <;> simp [actionBytes]
@[simp] theorem typeBytes_length (v : BitVec 16) (t : Option (BitVec 16)) : (typeBytes v t).length = 3 := by cases t <;> simp [typeBytes]
@[simp] theorem entryBytes_length (v : BitVec 16) (e : Entry) : (entryBytes v e).length = 14 := by simp [entryBytes]
@[simp] theorem portPlaceBytes_length (place : Nat) (p : Port) : (portPlaceBytes place p).length = 143 := by simp [portPlaceBytes]
@[simp] theorem lanePlaceBytes_length (place : Nat) (l : Lane) : (lanePlaceBytes place l).length = 208 := by simp [lanePlaceBytes]
@[simp] theorem agentPlaceBytes_length (a : Agent) : (agentPlaceBytes a).length = 56 := by simp [agentPlaceBytes]
@[simp] theorem laneStatusBytes_length (l : Lane) : (laneStatusBytes l).length = 34 := by simp [laneStatusBytes]

theorem destBytes_length (d : Option (Place × Addr)) : (match d with
    | some (p, a) => [BitVec.ofNat 8 (placeCode p)] ++ beBytes 6 a.toNat
    | none => [(0xFF : Byte), 0, 0, 0, 0, 0, 0]).length = 7 := by
  cases d <;> simp

@[simp] theorem statusBytes_length (s : State) : (statusBytes s).length = 209 := by
  simp only [statusBytes, List.length_append, laneStatusBytes_length, beBytes_length, List.length_cons, List.length_nil]
  erw [destBytes_length]

/-- A channel read is its number and its thirteen counters (R162). -/
theorem sweepChans_length (clear : Bool) (n : Nat) (c : Chan) (s : State) : (sweepChans clear n c s).1.length = 80 * n := by
  induction n generalizing c s with
  | zero => rfl
  | succ n ih => simp only [sweepChans, sweepChan, List.length_append, ih, beBytes_length, counterBytes_length]; omega

/-- A place read holds the bytes of its kind (R163). -/
theorem readPlace_length {clear : Bool} {place : Nat} (s : State) : (readPlace clear place s).1.length = placeSize place := by
  unfold readPlace placeSize
  by_cases hport : place < 4
  · simp [portIdOf, hport]
  · simp only [portIdOf, hport, dite_false, if_false]
    by_cases hlane : place < 9
    · have : place - 4 < 5 := by omega
      simp [laneIdOf, this, hlane]
    · have : ¬ place - 4 < 5 := by omega
      simp [laneIdOf, this, hlane]

theorem readPlaces_length (clear : Bool) (n place : Nat) (s : State) : (readPlaces clear n place s).1.length = placesSize place n := by
  induction n generalizing place s with
  | zero => rfl
  | succ n ih => simp only [readPlaces, placesSize, List.length_append, ih, readPlace_length]

/-! ### The directives -/

theorem dirChanOpen_outcome (ops : List Byte) (s : State) : OutcomeOk 12 s (dirChanOpen ops s) := by
  unfold dirChanOpen
  split
  · exact .format ..
  · split
    · exact .format ..
    · split
      · exact .range ..
      · split
        · exact .range ..
        · split
          · exact .state ..
          · exact .done (configBytes_length _) ..

theorem dirChanSet_outcome (ops : List Byte) (s : State) : OutcomeOk 12 s (dirChanSet ops s) := by
  unfold dirChanSet
  split
  · exact .format ..
  · split
    · exact .format ..
    · split
      · exact .range ..
      · split
        · exact .range ..
        · split
          · exact .state ..
          · exact .done (configBytes_length _) ..

theorem dirChanClose_outcome (ops : List Byte) (s : State) : OutcomeOk 0 s (dirChanClose ops s) := by
  unfold dirChanClose
  split
  · exact .format ..
  · split
    · exact .range ..
    · split
      · exact .range ..
      · split
        · exact .done rfl ..
        · exact .done rfl ..

theorem dirChanRead_outcome (ops : List Byte) (s : State) : OutcomeOk 219 s (dirChanRead ops s) := by
  unfold dirChanRead
  split
  · exact .format ..
  · split
    · exact .range ..
    · exact .done (chanReadBytes_length ..) ..

theorem dirKeyStage_outcome (ops : List Byte) (s : State) : OutcomeOk 0 s (dirKeyStage ops s) := by
  unfold dirKeyStage
  split
  · exact .format ..
  · exact .done rfl ..

theorem dirKeyCommit_outcome (ops : List Byte) (s : State) : OutcomeOk 3 s (dirKeyCommit ops s) := by
  unfold dirKeyCommit
  split
  · exact .format ..
  · split
    · split
      · exact .state ..
      · split
        · exact .busy ..
        · exact .done (beBytes_length ..) ..
    · exact .range ..

theorem dirKeyErase_outcome (ops : List Byte) (s : State) : OutcomeOk 0 s (dirKeyErase ops s) := by
  have hout : ∀ c x, OutcomeOk 0 s (eraseOut c x s) := fun c x => by
    unfold eraseOut
    split
    · exact .done rfl ..
    · exact .done rfl ..
    · exact .state ..
    · exact .state ..
    · exact .busy ..
  have hin : ∀ c x, OutcomeOk 0 s (eraseIn c x s) := fun c x => by
    unfold eraseIn
    split
    · exact .done rfl ..
    · exact .done rfl ..
    · exact .done rfl ..
    · split
      · exact .state ..
      · exact .done rfl ..
  unfold dirKeyErase
  split
  · exact .format ..
  · split
    · split
      · exact hin ..
      · exact hout ..
    · exact .range ..

theorem dirSwitchNow_outcome (ops : List Byte) (s : State) : OutcomeOk 10 s (dirSwitchNow ops s) := by
  unfold dirSwitchNow
  split
  · exact .format ..
  · split
    · exact .range ..
    · split
      · exact .state ..
      · exact .done (by simp) ..

theorem dirSwitchAt_outcome (ops : List Byte) (s : State) : OutcomeOk 9 s (dirSwitchAt ops s) := by
  unfold dirSwitchAt
  split
  · exact .format ..
  · split
    · exact .range ..
    · split
      · exact .state ..
      · simp only
        split
        · exact .done (by simp) ..
        · exact .done (by simp) ..

theorem dirSwitchCancel_outcome (ops : List Byte) (s : State) : OutcomeOk 8 s (dirSwitchCancel ops s) := by
  unfold dirSwitchCancel
  split
  · exact .format ..
  · split
    · exact .range ..
    · exact .done (timeOrZero_length _) ..

theorem dirTimeRead_outcome (ops : List Byte) (s : State) : OutcomeOk 8 s (dirTimeRead ops s) := by
  unfold dirTimeRead
  split
  · exact .format ..
  · exact .done (beBytes_length ..) ..

theorem ruleEdit_outcome (base : Entry → Entry) (ops : List Byte) (s : State) : OutcomeOk 16 s (ruleEdit base ops s) := by
  unfold ruleEdit
  split
  · exact .format ..
  · split
    · exact .format ..
    · split
      · exact .format ..
      · split
        · exact .range ..
        · split
          · exact .range ..
          · exact .done (by simp) ..

theorem dirRuleClear_outcome (ops : List Byte) (s : State) : OutcomeOk 0 s (dirRuleClear ops s) := by
  unfold dirRuleClear
  split
  · exact .format ..
  · simp only
    split
    · exact .range ..
    · exact .done rfl ..

theorem dirRuleRead_outcome (ops : List Byte) (s : State) : OutcomeOk (if numAt ops 0 1 = 0 then 23 else 17) s (dirRuleRead ops s) := by
  generalize hn : (if numAt ops 0 1 = 0 then 23 else 17) = n
  unfold dirRuleRead
  split
  · exact .format ..
  · split
    · next h _ => exact .done (by simp [← hn, h]) ..
    · next h _ => exact .done (by simp [← hn, h]) ..
    · exact .range ..

theorem dirRuleMove_outcome (n : Nat) (ops : List Byte) (s : State) : OutcomeOk n s (dirRuleMove ops s) := by
  unfold dirRuleMove
  split
  · exact .format ..
  · simp only
    split
    · exact .range ..
    · exact .begun ..

theorem dirTableCommit_outcome (ops : List Byte) (s : State) : OutcomeOk 2 s (dirTableCommit ops s) := by
  unfold dirTableCommit
  split
  · exact .format ..
  · exact .done (beBytes_length ..) ..

theorem dirTableRevert_outcome (ops : List Byte) (s : State) : OutcomeOk 0 s (dirTableRevert ops s) := by
  unfold dirTableRevert
  split
  · exact .format ..
  · exact .done rfl ..

theorem dirPortSet_outcome (ops : List Byte) (s : State) : OutcomeOk 10 s (dirPortSet ops s) := by
  unfold dirPortSet
  split
  · exact .format ..
  · split
    · exact .format ..
    · split
      · exact .range ..
      · split
        · exact .range ..
        · exact .done (portSetBytes_length ..) ..

theorem dirLaneSet_outcome (ops : List Byte) (s : State) : OutcomeOk 8 s (dirLaneSet ops s) := by
  unfold dirLaneSet
  split
  · exact .format ..
  · split
    · exact .range ..
    · split
      · exact .state ..
      · exact .done (laneSetBytes_length _) ..

theorem dirLoopSet_outcome (ops : List Byte) (s : State) : OutcomeOk 14 s (dirLoopSet ops s) := by
  unfold dirLoopSet
  split
  · exact .format ..
  · split
    · exact .format ..
    · split
      · exact .range ..
      · split
        · exact .range ..
        · split
          · exact .state ..
          · exact .done (loopSetBytes_length ..) ..

theorem dirTestSet_outcome (ops : List Byte) (s : State) : OutcomeOk 8 s (dirTestSet ops s) := by
  unfold dirTestSet
  split
  · exact .format ..
  · split
    · exact .format ..
    · split
      · exact .done (testSetBytes_length ..) ..
      · exact .range ..

theorem dirTestInject_outcome (ops : List Byte) (s : State) : OutcomeOk 0 s (dirTestInject ops s) := by
  unfold dirTestInject
  split
  · exact .format ..
  · split
    · split
      · exact .done rfl ..
      · exact .state ..
    · exact .range ..

theorem dirCountSweep_outcome (ops : List Byte) (s : State) :
    OutcomeOk (if 1 ≤ numAt ops 2 1 ∧ numAt ops 2 1 ≤ 16 then 2 + 80 * numAt ops 2 1 else 0) s (dirCountSweep ops s) := by
  generalize hn : (if 1 ≤ numAt ops 2 1 ∧ numAt ops 2 1 ≤ 16 then 2 + 80 * numAt ops 2 1 else 0) = n
  unfold dirCountSweep
  split
  · exact .format ..
  · split
    · simp only
      split
      · exact .range ..
      · rw [if_pos (by omega)] at hn
        exact .done (by simp [sweepChans_length, ← hn, Nat.add_comm]) ..
    · exact .range ..

theorem dirPortCounts_outcome (ops : List Byte) (s : State) :
    OutcomeOk (if numAt ops 0 1 ≤ 9 ∧ 1 ≤ numAt ops 1 1 ∧ numAt ops 1 1 ≤ 10 then 1 + placesSize (numAt ops 0 1) (numAt ops 1 1) else 0) s
      (dirPortCounts ops s) := by
  generalize hn : (if numAt ops 0 1 ≤ 9 ∧ 1 ≤ numAt ops 1 1 ∧ numAt ops 1 1 ≤ 10 then
    1 + placesSize (numAt ops 0 1) (numAt ops 1 1) else 0) = n
  unfold dirPortCounts
  split
  · exact .format ..
  · split
    · simp only
      split
      · exact .range ..
      · rw [if_pos (by omega)] at hn
        exact .done (by simp [readPlaces_length, ← hn, Nat.add_comm]) ..
    · exact .range ..

theorem dirStatusRead_outcome (ops : List Byte) (s : State) : OutcomeOk 209 s (dirStatusRead ops s) := by
  unfold dirStatusRead
  split
  · exact .format ..
  · exact .done (statusBytes_length s) ..

theorem dirNoticeMask_outcome (ops : List Byte) (s : State) : OutcomeOk 2 s (dirNoticeMask ops s) := by
  unfold dirNoticeMask
  split
  · exact .format ..
  · split
    · exact .range ..
    · exact .done (beBytes_length ..) ..

theorem dirIdRead_outcome (ops : List Byte) (s : State) : OutcomeOk 64 s (dirIdRead ops s) := by
  unfold dirIdRead
  split
  · exact .format ..
  · exact .done (IdentityStore.idReadBytes_length _) ..

theorem dirIdBurn_outcome (ops : List Byte) (s : State) : OutcomeOk 2 s (dirIdBurn ops s) := by
  unfold dirIdBurn
  split
  · exact .format ..
  · split
    · exact .range ..
    · split
      · exact .range ..
      · split
        · exact .locked ..
        · split
          · exact .done (IdentityStore.idWordBytes_length ..) ..
          · exact .begun ..

theorem dirZeroize_outcome (ops : List Byte) (s : State) : OutcomeOk 0 s (dirZeroize ops s) := by
  unfold dirZeroize
  split
  · exact .format ..
  · exact .done rfl ..

theorem dirRestart_outcome (last : Bool) (ops : List Byte) (s : State) : OutcomeOk 0 s (dirRestart last ops s) := by
  unfold dirRestart
  split
  · exact .format ..
  · exact .done rfl ..

/-! ### The statement -/

/-- The bytes the budget test counts for a directive, by its code (R159). -/
theorem perform_outcome (last : Bool) (d : Directive) (s : State) : OutcomeOk (dataSize d) s (perform last d s) := by
  unfold perform
  split
  all_goals (rename_i h; unfold dataSize; try rw [h])
  · exact dirChanOpen_outcome ..
  · exact dirChanSet_outcome ..
  · exact dirChanClose_outcome ..
  · exact dirChanRead_outcome ..
  · exact dirKeyStage_outcome ..
  · exact dirKeyCommit_outcome ..
  · exact dirKeyErase_outcome ..
  · exact dirSwitchNow_outcome ..
  · exact dirSwitchAt_outcome ..
  · exact dirSwitchCancel_outcome ..
  · exact dirTimeRead_outcome ..
  · exact ruleEdit_outcome ..
  · exact ruleEdit_outcome ..
  · exact dirRuleClear_outcome ..
  · exact dirRuleRead_outcome ..
  · exact dirRuleMove_outcome ..
  · exact dirTableCommit_outcome ..
  · exact dirTableRevert_outcome ..
  · exact dirPortSet_outcome ..
  · exact dirLaneSet_outcome ..
  · exact dirLoopSet_outcome ..
  · exact dirTestSet_outcome ..
  · exact dirTestInject_outcome ..
  · exact dirCountSweep_outcome ..
  · exact dirPortCounts_outcome ..
  · exact dirStatusRead_outcome ..
  · exact dirNoticeMask_outcome ..
  · exact dirIdRead_outcome ..
  · exact dirIdBurn_outcome ..
  · exact dirZeroize_outcome ..
  · exact dirRestart_outcome ..
  · exact .format ..

/-- Settles O52: directive by directive. -/
theorem directiveOutcomes : Obligations.DirectiveOutcomes := by
  intro last d s o data t h
  have hok := perform_outcome last d s
  rw [h] at hok
  exact hok

end Sys2Proof.Outcomes
end

section
/-! What the receivers read in a frame: the marker, a malformed header, a MAC control frame and the fields of the header (R1 to R7). -/

namespace Sys2Proof.Headers
open Sys2Proof.Machine Sys2Proof.Safety

/-- A frame carries the marker exactly when it stands before the FCS (R3; log 42). -/
theorem hasMarker_iff (f : Frame) : hasMarker f = true ↔ 18 ≤ f.length ∧ numAt f 12 2 = 0x9A3C := by
  unfold hasMarker
  rw [Bool.and_eq_true, decide_eq_true_eq, innerBytes_length, beq_iff_eq]
  constructor
  · rintro ⟨hlen, hword⟩
    exact ⟨by omega, by rw [← word16_innerBytes (i := 0) (by omega), hword]; rfl⟩
  · rintro ⟨hlen, hword⟩
    exact ⟨by omega, BitVec.eq_of_toNat_eq (by rw [word16_innerBytes (by omega), hword]; rfl)⟩

theorem hasMarker_iff_bytes (f : Frame) : hasMarker f = true ↔ 18 ≤ f.length ∧ f.getD 12 0 = 0x9A ∧ f.getD 13 0 = 0x3C := by
  rw [hasMarker_iff]
  refine and_congr_right fun hlen => ?_
  rw [numAt_two f (by omega)]
  have hhigh := (f.getD 12 0).isLt
  have hlow := (f.getD 13 0).isLt
  rw [← BitVec.toNat_inj, ← BitVec.toNat_inj]
  show (f.getD 12 0).toNat * 256 + (f.getD 13 0).toNat = 39484 ↔ (f.getD 12 0).toNat = 154 ∧ (f.getD 13 0).toNat = 60
  omega

/-- A frame that holds bytes between SA and FCS is MAC control by the type there. -/
theorem isMacControl_iff {f : Frame} (h : 18 ≤ f.length) : isMacControl f = true ↔ numAt f 12 2 = 0x8808 := by
  rw [isMacControl, beq_iff_eq, ← word16_innerBytes (i := 0) (by omega)]
  exact ⟨fun e => by rw [e]; rfl, fun e => BitVec.eq_of_toNat_eq e⟩

/-! ### Fields of the header -/

theorem headerChan_val (h : Header) : (headerChan h).val = h.chanField.toNat % 1024 := by simp [headerChan]

theorem headerOrigin_iff (h : Header) : headerOrigin h = true ↔ 32768 ≤ h.chanField.toNat := by
  have hmsb : headerOrigin h = h.chanField.msb := rfl
  rw [hmsb, BitVec.msb_eq_decide, decide_eq_true_eq]

theorem headerVersion_ne_iff (h : Header) : headerVersion h ≠ 1 ↔ h.control.toNat / 64 ≠ 1 := by
  have hlt := h.control.isLt
  rw [not_iff_not, headerVersion, ← BitVec.toNat_inj, BitVec.extractLsb'_toNat, Nat.shiftRight_eq_div_pow]
  simp; omega

theorem extract_ne_zero_iff (v : BitVec 16) : v.extractLsb' 10 5 ≠ 0 ↔ ∃ i, 10 ≤ i ∧ i ≤ 14 ∧ v.getLsbD i = true := by
  constructor
  · intro h
    by_contra hno
    refine h (BitVec.eq_of_getLsbD_eq fun j hj => ?_)
    rw [BitVec.getLsbD_extractLsb']
    simp only [not_exists, not_and, Bool.not_eq_true] at hno
    simp [hno (10 + j) (by omega) (by omega)]
  · rintro ⟨i, hlo, hhi, hbit⟩ h
    have hzero : (v.extractLsb' 10 5).getLsbD (i - 10) = false := by rw [h]; simp
    rw [BitVec.getLsbD_extractLsb', show 10 + (i - 10) = i by omega, hbit] at hzero
    simp at hzero; omega

theorem headerReserved_iff (h : Header) :
    headerReserved h = true ↔ h.control.toNat % 8 ≠ 0 ∨ ∃ i, 10 ≤ i ∧ i ≤ 14 ∧ h.chanField.getLsbD i = true := by
  rw [headerReserved, Bool.or_eq_true, bne_iff_ne, bne_iff_ne, extract_ne_zero_iff]
  refine or_congr_left (not_congr ?_)
  rw [← BitVec.toNat_inj, BitVec.extractLsb'_toNat]
  simp

/-- The flag combinations that no channel accepts (R6). -/
theorem flagsAccepted_false_iff (h : Header) : flagsAccepted h = false ↔
    (headerChan h).val = 0 ∧ (headerBeacon h = true ∨ headerTest h = true) ∨
    (headerChan h).val = 1 ∧ (headerClear h = true ∨ headerBeacon h = headerTest h) ∨
    2 ≤ (headerChan h).val ∧ (headerClear h = true ∨ headerBeacon h = true ∨ headerTest h = true) := by
  have h0 : headerChan h = 0 ↔ (headerChan h).val = 0 := Fin.ext_iff
  have h1 : headerChan h = 1 ↔ (headerChan h).val = 1 := Fin.ext_iff
  simp only [flagsAccepted, h0, h1]
  by_cases c0 : (headerChan h).val = 0
  · cases headerBeacon h <;> cases headerTest h <;> simp [c0]
  · by_cases c1 : (headerChan h).val = 1
    · cases headerClear h <;> cases headerBeacon h <;> cases headerTest h <;> simp [c1]
    · have c2 : 2 ≤ (headerChan h).val := by omega
      cases headerClear h <;> cases headerBeacon h <;> cases headerTest h <;> simp [c0, c1, c2]

/-- The bound of a header's length lies between that of a CLEAR frame and that of one with a tag (R3). -/
theorem envelopeMin_ge (h : Header) : 30 ≤ envelopeMin h := by
  unfold envelopeMin Config.envelopeMinClear Config.envelopeMinTagged; split <;> omega

theorem malformed_iff_header (f : Frame) : malformed f = true ↔ headerVersion (headerOf f) ≠ 1 ∨ headerReserved (headerOf f) = true ∨
    flagsAccepted (headerOf f) = false ∨ (headerOf f).seq = 0 ∨ f.length < envelopeMin (headerOf f) := by
  simp [malformed, or_assoc]

/-- A frame is MALFORMED by its bytes where 12.1 has them; one that is too short for a header is, whatever it holds (R7). -/
theorem malformed_iff (f : Frame) : malformed f = true ↔ Malformed f := by
  rw [malformed_iff_header]
  by_cases hshort : f.length < 30
  · refine iff_of_true (.inr (.inr (.inr (.inr (lt_of_lt_of_le hshort (envelopeMin_ge _)))))) ?_
    refine ⟨_, BitVec.ofNat 16 (numAt f 16 2), _, _, _, _, rfl, ?_, rfl, rfl, rfl, rfl, ?_⟩
    · have := numAt_lt f 16 2
      rw [BitVec.toNat_ofNat]; omega
    · refine .inr (.inr (.inr (.inr (.inr (.inr (.inr ?_))))))
      split <;> omega
  · obtain ⟨hcontrol, -, hfield, hseq⟩ := headerOf_read (f := f) (by omega)
    have hseq0 : (headerOf f).seq = 0 ↔ numAt f 18 6 = 0 := by rw [← BitVec.toNat_inj, hseq]; rfl
    have hmin : envelopeMin (headerOf f) = if headerClear (headerOf f) = true then 30 else 46 := rfl
    rw [headerVersion_ne_iff, headerReserved_iff, flagsAccepted_false_iff, headerChan_val, hseq0, hmin]
    constructor
    · intro h
      refine ⟨_, _, _, _, _, _, rfl, hfield, rfl, rfl, rfl, rfl, ?_⟩
      simpa only [headerClear, headerBeacon, headerTest, hcontrol, or_assoc] using h
    · rintro ⟨control, field, chan, clear, beacon, test, rfl, hfield', rfl, rfl, rfl, rfl, h⟩
      obtain rfl : field = (headerOf f).chanField := BitVec.eq_of_toNat_eq (hfield'.trans hfield.symm)
      simpa only [headerClear, headerBeacon, headerTest, hcontrol, or_assoc] using h

end Sys2Proof.Headers
end

section
/-! The statements on frames that arrive: the inner port receiver, the lane receiver, routing, slot selection and the intake (R58 to R60, R72 to R79, R86,
R145, R156, R157). -/

namespace Sys2Proof.Arrivals
open Sys2Proof.Machine Sys2Proof.Safety Sys2Proof.Headers

/-! ### The intake (R156, R157) -/

/-- The directives of a request as counted, and what stands behind them. -/
theorem parseRequest_cases (msg : List Byte) (count : Nat) (pos : Nat → Nat) (hcount : count = (msg.getD 2 0).toNat) (hpos : pos 0 = 3)
    (hstep : ∀ j, pos (j + 1) = pos j + 3 + numAt msg (pos j + 1) 2) :
    ((msg.length < 3 ∨ count < 1 ∨ 32 < count ∨ msg.length < pos count) ∧ parseRequest msg = none) ∨
    (¬ (msg.length < 3 ∨ count < 1 ∨ 32 < count ∨ msg.length < pos count) ∧ ∃ ds, ds.length = count ∧
      (∀ i d, ds[i]? = some d → d.code = msg.getD (pos i) 0 ∧ d.ops = slice msg (pos i + 3) (numAt msg (pos i + 1) 2)) ∧
      parseRequest msg = if (msg.drop (pos count)).all (· == 0) then some (BitVec.ofNat 16 (numAt msg 0 2), ds) else none) := by
  subst hcount
  obtain ⟨hrun, hread⟩ := parseDirectives_spec msg pos hstep (msg.getD 2 0).toNat 0
  rw [hpos, Nat.zero_add] at hrun hread
  simp only [parseRequest]
  by_cases hcounted : msg.length < 3 ∨ (msg.getD 2 0).toNat < 1 ∨ 32 < (msg.getD 2 0).toNat
  · exact .inl ⟨by tauto, if_pos hcounted⟩
  · rw [if_neg hcounted]
    by_cases hend : msg.length < pos (msg.getD 2 0).toNat
    · exact .inl ⟨by tauto, by rw [hrun hend (by omega)]⟩
    · obtain ⟨ds, hds, hlen, hat⟩ := hread (by omega)
      exact .inr ⟨by tauto, ds, hlen, fun i d hd => by simpa using hat i d hd, by rw [hds]⟩

/-- Bytes behind a place are all zero unless one of them is not. -/
theorem all_zero_drop_iff (msg : List Byte) (n : Nat) :
    (msg.drop n).all (· == 0) = true ↔ ¬ ∃ i b, n ≤ i ∧ msg[i]? = some b ∧ b ≠ 0 := by
  rw [List.all_eq_true]
  constructor
  · rintro h ⟨i, b, hi, hb, hne⟩
    have hmem : b ∈ msg.drop n := List.mem_of_getElem? (i := i - n) (by rw [List.getElem?_drop, Nat.add_sub_cancel' hi]; exact hb)
    exact hne (by simpa using h b hmem)
  · intro h b hb
    obtain ⟨i, hi⟩ := List.getElem?_of_mem hb
    rw [List.getElem?_drop] at hi
    by_contra hne
    exact h ⟨n + i, b, by omega, hi, by simpa using hne⟩

theorem takeRequest_taken (p : Place) (sa : Addr) (clear : Bool) (msg : List Byte) (s : State) :
    RequestTaken p sa clear msg s (takeRequest p sa clear msg s) := by
  refine ⟨_, rfl, fun h => ?_, fun id dirs h hroom => ?_, fun id dirs h hfull => ?_⟩
  · unfold takeRequest; rw [h]; rfl
  · unfold takeRequest; rw [h]
    exact if_pos hroom
  · unfold takeRequest; rw [h]
    exact if_neg (Nat.not_lt.2 hfull)

/-! ### Management frames (R60, R86) -/

section management
variable {p : Place} {f : Frame} {s : State}

theorem routeManagement_notRequest (h : headerOrigin (headerOf f) = true) : routeManagement p f s = s.countAgent .notRequest := by
  simp [routeManagement, intakeClear, h]

theorem routeManagement_protected (h : headerOrigin (headerOf f) = false) (hc : headerClear (headerOf f) = false) :
    routeManagement p f s = selectFrame p f false none s := by
  simp [routeManagement, h, hc]

theorem routeManagement_refused (h : headerOrigin (headerOf f) = false) (hc : headerClear (headerOf f) = true) (hl : lockBit s = true) :
    routeManagement p f s = s.countAgent .clearRefused := by
  simp [routeManagement, intakeClear, h, hc, hl]

theorem routeManagement_taken (h : headerOrigin (headerOf f) = false) (hc : headerClear (headerOf f) = true) (hl : lockBit s = false) :
    routeManagement p f s = takeRequest p (frameSa f) true (clearPart f) s := by
  simp [routeManagement, intakeClear, h, hc, hl]

end management

/-! ### The inner port receiver (R58) -/

section inner
variable {n : PortId} {f : Frame} {s : State}

theorem exec_innerFrameArrival_blocked {b : Bool} (h : blocked s = true ∨ b = true) : exec (.innerFrameArrival n f b) s = .next s := by
  show Host.Outcome.next (if blocked s || b then s else arriveInner n f s) = .next s
  rw [if_pos (by simpa using h)]

theorem exec_innerFrameArrival (hb : blocked s = false) : exec (.innerFrameArrival n f false) s =
    .next (settle (receiveInner n f ((s.countPort n .framesReceived).countPort n .octetsReceived f.length))) := by
  show Host.Outcome.next (if blocked s || false then s else arriveInner n f s) = _
  rw [if_neg (by simp [hb])]; rfl

theorem receiveInner_badFcs (h : fcsGood f = false) : receiveInner n f s = s.countPort n .badFcs := by simp [receiveInner, h]

theorem receiveInner_undersize (h : fcsGood f = true) (hs : f.length < 64) : receiveInner n f s = s.countPort n .undersize := by
  simp [receiveInner, Config.innerMin, h, hs]

theorem receiveInner_oversize (h : fcsGood f = true) (hl : 9216 < f.length) : receiveInner n f s = s.countPort n .oversize := by
  have : ¬ f.length < 64 := by omega
  simp [receiveInner, Config.innerMin, Config.innerMax, h, this, hl]

/-- A frame that passes the tests of FCS and size goes on by its type, its DA and its marker. -/
theorem receiveInner_sized (h : fcsGood f = true) (hs : 64 ≤ f.length) (hl : f.length ≤ 9216) : receiveInner n f s =
    if isMacControl f then consumeControl n f s
    else if frameDa f = s.ownAddr ∧ hasMarker f = true then
      if malformed f then s.countPort n .malformed
      else if headerChan (headerOf f) = 0 then routeManagement (.port n) f (s.countPort n .toAgent)
      else classify n f s
    else classify n f s := by
  rw [receiveInner, if_neg (by simp [h]), if_neg (by simp only [Config.innerMin]; omega), if_neg (by simp only [Config.innerMax]; omega)]

theorem consumeControl_dropped (h : word16 (innerBytes f) 2 ≠ 1) : consumeControl n f s = s.countPort n .controlDropped := if_neg h

theorem consumeControl_pause (h : word16 (innerBytes f) 2 = 1) : consumeControl n f s = s.updPort n fun p =>
    { p.count .pauseReceived with
      hold := if word16 (innerBytes f) 4 = 0 then none
        else some { start := s.time, len := (word16 (innerBytes f) 4).toNat * 512 / 100000 } } := by
  have hq : (word16 (innerBytes f) 4).toNat = 0 ↔ word16 (innerBytes f) 4 = 0 := by rw [← BitVec.toNat_inj]; rfl
  rw [consumeControl, if_pos (by exact h)]
  simp only [hq]; rfl

end inner

/-- Settles O6: the tests of the receiver in their order. -/
theorem innerFrameSorted : Obligations.InnerFrameSorted := by
  refine ⟨fun f => ⟨hasMarker_iff f, malformed_iff f, isMacControl_iff⟩, fun n f s => ⟨fun b h => exec_innerFrameArrival_blocked h, fun ctr hb h => ?_⟩,
    fun n f s hb hfcs hs hl hmac hop => ?_⟩
  · rw [exec_innerFrameArrival hb]
    rcases h with ⟨hfcs, rfl⟩ | ⟨hfcs, hs, rfl⟩ | ⟨hfcs, hl, rfl⟩ | ⟨hfcs, hs, hl, hmac, hop, rfl⟩ | ⟨hfcs, hs, hl, hda, hmark, hmal, rfl⟩
    · rw [receiveInner_badFcs hfcs]
    · rw [receiveInner_undersize hfcs hs]
    · rw [receiveInner_oversize hfcs hl]
    · rw [receiveInner_sized hfcs hs hl, if_pos hmac, consumeControl_dropped hop]
    · rw [receiveInner_sized hfcs hs hl, if_neg (by simp [isMacControl_of_hasMarker hmark]), if_pos ⟨hda, hmark⟩, if_pos hmal]
  · rw [exec_innerFrameArrival hb, receiveInner_sized hfcs hs hl, if_pos hmac, consumeControl_pause hop]; rfl

/-- Settles O7: the message framing, and the two ways a frame goes on. -/
theorem innerFrameRouted : Obligations.InnerFrameRouted := by
  refine ⟨fun msg count pos hcount hpos hstep => ?_, fun n f s hb hfcs hs hl hmac hgo => ?_, fun n f s hb hfcs hs hl hda hmark hmal hchan => ?_⟩
  · rcases parseRequest_cases msg count pos hcount hpos hstep with ⟨hbad, hnone⟩ | ⟨hgood, ds, hlen, hat, hsome⟩
    · rw [hnone]
      exact ⟨by tauto, by simp⟩
    · rw [hsome]
      by_cases hz : (msg.drop (pos count)).all (· == 0) = true
      · have hno := (all_zero_drop_iff msg (pos count)).1 hz
        rw [if_pos hz]
        refine ⟨iff_of_false (by simp) ?_, fun id dirs e => ?_⟩
        · rintro (h | h | h | h | h)
          · exact hgood (.inl h)
          · exact hgood (.inr (.inl h))
          · exact hgood (.inr (.inr (.inl h)))
          · exact hgood (.inr (.inr (.inr h)))
          · exact hno h
        cases e
        have hid := numAt_lt msg 0 2
        exact ⟨by rw [BitVec.toNat_ofNat]; omega, hlen, hat⟩
      · have hyes := not_not.1 (mt (all_zero_drop_iff msg (pos count)).2 hz)
        rw [if_neg hz]
        exact ⟨by tauto, by simp⟩
  · rw [exec_innerFrameArrival hb, receiveInner_sized hfcs hs hl, if_neg (by simp [hmac])]
    have hclassify : classify n f ((s.countPort n .framesReceived).countPort n .octetsReceived f.length) =
        ((s.countPort n .framesReceived).countPort n .octetsReceived f.length).updPort n fun p =>
          { p with outLine := p.outLine ++ [{ frame := f, stage := .lookup (beginLookup s .outbound n (innerBytes f)) }] } := rfl
    split
    · next hto =>
      obtain ⟨hda, hmark⟩ := hto
      rcases hgo with hgo | hgo | ⟨hmal, hchan⟩
      · exact absurd hda hgo
      · exact absurd hmark (by simp [hgo])
      · rw [if_neg (by simp [hmal]), if_neg hchan, hclassify]
    · rw [hclassify]
  · have hrun : exec (.innerFrameArrival n f false) s = .next (settle (routeManagement (.port n) f
        (((s.countPort n .framesReceived).countPort n .octetsReceived f.length).countPort n .toAgent))) := by
      rw [exec_innerFrameArrival hb, receiveInner_sized hfcs hs hl, if_neg (by simp [isMacControl_of_hasMarker hmark]),
        if_pos ⟨hda, hmark⟩, if_neg (by simp [hmal]), if_pos hchan]
    refine ⟨_, rfl, fun ho => ?_, fun ho hc => ?_, fun ho hc hl => ?_, fun ho hc hl => ?_⟩
    · rw [hrun, routeManagement_notRequest ho]
    · rw [hrun, routeManagement_protected ho hc]
    · rw [hrun, routeManagement_refused ho hc (by exact hl)]
    · exact ⟨_, by rw [hrun, routeManagement_taken ho hc (by exact hl)], takeRequest_taken ..⟩

/-! ### The lane receiver (R72, R74) -/

section lane
variable {k : LaneId} {f : Frame} {s : State}

theorem exec_laneFrameArrival_blocked {b : Bool} (h : blocked s = true ∨ b = true) : exec (.laneFrameArrival k f b) s = .next s := by
  show Host.Outcome.next (if blocked s || b then s else arriveLane k f s) = .next s
  rw [if_pos (by simpa using h)]

theorem exec_laneFrameArrival (hb : blocked s = false) : exec (.laneFrameArrival k f false) s = .next (arriveLane k f s) := by
  show Host.Outcome.next (if blocked s || false then s else arriveLane k f s) = _
  rw [if_neg (by simp [hb])]

theorem exec_laneFrameArrival_none (hb : blocked s = false) (hm : (s.lane k).loopMode = .none) : exec (.laneFrameArrival k f false) s =
    .next (settle (receiveLine k f ((s.countLane k .framesReceived).countLane k .octetsReceived f.length))) := by
  rw [exec_laneFrameArrival hb, arriveLane, hm]

theorem exec_laneFrameArrival_cipher (hb : blocked s = false) (hm : (s.lane k).loopMode = .cipher) : exec (.laneFrameArrival k f false) s =
    .next (settle ((s.countLane k .framesReceived).countLane k .octetsReceived f.length)) := by
  rw [exec_laneFrameArrival hb, arriveLane, hm]

theorem exec_laneFrameArrival_line (hb : blocked s = false) (hm : (s.lane k).loopMode = .line) : exec (.laneFrameArrival k f false) s =
    .next (settle (if fcsGood f then returnFrame k f ((s.countLane k .framesReceived).countLane k .octetsReceived f.length)
      else ((s.countLane k .framesReceived).countLane k .octetsReceived f.length).countLane k .badFcs)) := by
  rw [exec_laneFrameArrival hb, arriveLane, hm]

theorem receiveLine_badFcs (h : fcsGood f = false) : receiveLine k f s = s.countLane k .badFcs := by simp [receiveLine, h]

theorem receiveLine_marked (h : fcsGood f = true) (hm : hasMarker f = true) : receiveLine k f s = receiveEnvelope k f s := by
  simp [receiveLine, h, hm]

theorem receiveLine_undersize (h : fcsGood f = true) (hm : hasMarker f = false) (hs : f.length < 64) :
    receiveLine k f s = s.countLane k .undersize := by simp [receiveLine, Config.innerMin, h, hm, hs]

theorem receiveLine_oversize (h : fcsGood f = true) (hm : hasMarker f = false) (hl : 9216 < f.length) :
    receiveLine k f s = s.countLane k .oversize := by
  have : ¬ f.length < 64 := by omega
  simp [receiveLine, Config.innerMin, Config.innerMax, h, hm, hl, this]

theorem receiveLine_clear (h : fcsGood f = true) (hm : hasMarker f = false) (hs : 64 ≤ f.length) (hl : f.length ≤ 9216) :
    receiveLine k f s = if isMacControl f then s.countLane k .controlDropped else receiveClear k f s := by
  rw [receiveLine, if_neg (by simp [h]), if_neg (by simp [hm]), if_neg (by simp only [Config.innerMin]; omega),
    if_neg (by simp only [Config.innerMax]; omega)]

theorem receiveEnvelope_oversize (h : 9244 < f.length) : receiveEnvelope k f s = s.countLane k .oversize := if_pos h

theorem receiveEnvelope_malformed (hl : f.length ≤ 9244) (h : malformed f = true) : receiveEnvelope k f s = s.countLane k .malformed := by
  rw [receiveEnvelope, if_neg (by simp only [Config.envelopeMax]; omega), if_pos h]

theorem receiveEnvelope_routed (hl : f.length ≤ 9244) (h : malformed f = false) : receiveEnvelope k f s = routeEnvelope k f false s := by
  rw [receiveEnvelope, if_neg (by simp only [Config.envelopeMax]; omega), if_neg (by simp [h])]

theorem receiveClear_unselected (h : boundPort s k = none) : receiveClear k f s = s.countLane k .unselected := by rw [receiveClear, h]

/-- A clear frame that the steering takes joins its lane's line, in which the lookups that can begin do (R44, R47). -/
theorem receiveClear_bound {n : PortId} (h : boundPort s k = some n) : receiveClear k f s = s.updLane k fun l =>
    { l with inLine := beginLookups s (l.inLine ++ [.clear f n]) } := by
  rw [receiveClear, h]
  show ((s.updLane k fun l => { l with inLine := (s.lane k).inLine ++ [.clear f n] }).startLookups (.lane k)) = _
  rw [startLookups_lane, State.updLane_updLane, State.updLane_lane_eq]
  have hcongr := beginLookups_congr (s := s.updLane k fun l => { l with inLine := (s.lane k).inLine ++ [.clear f n] }) (t := s) rfl rfl rfl
  exact State.updLane_congr _ (congrArg (fun q => ({ s.lane k with inLine := q } : Lane)) (hcongr _))

theorem returnFrame_overrun (h : 16384 < totalBytes (s.lane k).returnQueue + f.length) : returnFrame k f s = s.countLane k .loopOverrun := if_pos h

theorem returnFrame_returned (h : totalBytes (s.lane k).returnQueue + f.length ≤ 16384)
    (hm : hasMarker f = false ∨ (innerBytes f).length < 6 ∨ headerChan (headerOf f) ≠ 1) :
    returnFrame k f s = s.updLane k fun l => { l with returnQueue := l.returnQueue ++ [f] } := by
  rw [returnFrame, if_neg (by simp only [Config.returnCapacity]; omega)]
  refine if_neg ?_
  simp only [Bool.and_eq_true, decide_eq_true_eq, beq_iff_eq]
  rintro ⟨⟨hmark, hlen⟩, hchan⟩
  rcases hm with hm | hm | hm
  · exact absurd hmark (by simp [hm])
  · omega
  · exact hm hchan

theorem returnFrame_received (h : totalBytes (s.lane k).returnQueue + f.length ≤ 16384)
    (hmark : hasMarker f = true) (hlen : 6 ≤ (innerBytes f).length) (hchan : headerChan (headerOf f) = 1) :
    returnFrame k f s = receiveEnvelope k f (s.updLane k fun l => { l with returnQueue := l.returnQueue ++ [f] }) := by
  rw [returnFrame, if_neg (by simp only [Config.returnCapacity]; omega)]
  exact if_pos (by simp only [hmark, hchan]; simpa using hlen)

/-- The origin bit names this part's role when it says what the role is (R5, R78). -/
theorem own_eq (h : Header) (r : Role) : (headerOrigin h == roleBit r) = decide (headerOrigin h = decide (r = .campus)) := by
  cases headerOrigin h <;> cases r <;> rfl

theorem routeEnvelope_link {fed : Bool} (h : headerChan (headerOf f) = 1) : routeEnvelope k f fed s =
    selectFrame (.lane k) f (decide (headerOrigin (headerOf f) = decide (s.role = .campus))) none s := by
  rw [← own_eq]
  simp [routeEnvelope, h]

theorem routeEnvelope_management {fed : Bool} (h : headerChan (headerOf f) = 0) (hda : frameDa f = s.ownAddr) :
    routeEnvelope k f fed s = routeManagement (.lane k) f s := by simp [routeEnvelope, h, hda]

theorem routeEnvelope_foreign {fed : Bool} (h : headerChan (headerOf f) = 0) (hda : frameDa f ≠ s.ownAddr) (ho : headerOrigin (headerOf f) = false) :
    routeEnvelope k f fed s = s.countLane k .foreign := by simp [routeEnvelope, h, hda, ho]

theorem routeEnvelope_transit {fed : Bool} {n : PortId} (h : headerChan (headerOf f) = 0) (hda : frameDa f ≠ s.ownAddr)
    (ho : headerOrigin (headerOf f) = true) (hn : transitPort s k = some n) :
    routeEnvelope k f fed s = s.updLane k fun l => { l with inLine := l.inLine ++ [.ready (.transit f n)] } := by
  simp only [routeEnvelope, h, hda, ho, hn, if_true, if_false]; rfl

theorem routeEnvelope_untaken {fed : Bool} (h : headerChan (headerOf f) = 0) (hda : frameDa f ≠ s.ownAddr)
    (ho : headerOrigin (headerOf f) = true) (hn : transitPort s k = none) : routeEnvelope k f fed s = s.countLane k .unselected := by
  simp only [routeEnvelope, h, hda, ho, hn, if_true, if_false]

/-- A traffic frame, its role told by its origin bit. -/
theorem routeEnvelope_traffic {fed own : Bool} (h : 2 ≤ (headerChan (headerOf f)).val)
    (hown : own = decide (headerOrigin (headerOf f) = decide (s.role = .campus))) : routeEnvelope k f fed s =
      if own then if fed then steerAndSelect k f true s else s.countLane k .ownDropped else steerAndSelect k f false s := by
  have h0 : headerChan (headerOf f) ≠ 0 := fun e => by rw [e] at h; simp at h
  have h1 : headerChan (headerOf f) ≠ 1 := fun e => by rw [e] at h; simp at h
  subst hown
  rw [← own_eq]
  simp only [routeEnvelope, h0, h1, if_false]

theorem steerAndSelect_bound {own : Bool} {n : PortId} (h : boundPort s k = some n) :
    steerAndSelect k f own s = selectFrame (.lane k) f own (some n) s := by rw [steerAndSelect, h]

theorem steerAndSelect_unselected {own : Bool} (h : boundPort s k = none) : steerAndSelect k f own s = s.countLane k .unselected := by
  rw [steerAndSelect, h]

end lane

/-- Settles O14: the tests of the receiver in their order, and the two loopbacks. -/
theorem laneFrameSorted : Obligations.LaneFrameSorted := by
  refine ⟨fun f => ⟨hasMarker_iff_bytes f, malformed_iff f⟩, fun k f s => ⟨fun b h => exec_laneFrameArrival_blocked h, fun ctr hb hm h => ?_⟩,
    fun k f s hb => ⟨_, rfl, fun hm => exec_laneFrameArrival_cipher hb hm, fun hm hfcs => ?_, fun hm hfcs hfull => ?_, fun hm hfcs hroom hno => ?_,
      fun hm hfcs hroom hmark hlen hchan => ?_⟩⟩
  · rw [exec_laneFrameArrival_none hb hm]
    rcases h with ⟨hfcs, rfl⟩ | ⟨hfcs, hmark, hs, rfl⟩ | ⟨hfcs, hmark, hl, rfl⟩ | ⟨hfcs, hmark, hs, hl, hmac, rfl⟩ |
      ⟨hfcs, hmark, hs, hl, hmac, hport, rfl⟩ | ⟨hfcs, hmark, hl, rfl⟩ | ⟨hfcs, hmark, hl, hmal, rfl⟩
    · rw [receiveLine_badFcs hfcs]
    · rw [receiveLine_undersize hfcs hmark hs]
    · rw [receiveLine_oversize hfcs hmark hl]
    · rw [receiveLine_clear hfcs hmark hs hl, if_pos hmac]
    · rw [receiveLine_clear hfcs hmark hs hl, if_neg (by simp [hmac]), receiveClear_unselected (by exact hport)]
    · rw [receiveLine_marked hfcs hmark, receiveEnvelope_oversize hl]
    · rw [receiveLine_marked hfcs hmark, receiveEnvelope_malformed hl hmal]
  · rw [exec_laneFrameArrival_line hb hm, if_neg (by simp [hfcs])]
  · rw [exec_laneFrameArrival_line hb hm, if_pos hfcs, returnFrame_overrun (by simpa [Lane.count] using hfull)]
  · rw [exec_laneFrameArrival_line hb hm, if_pos hfcs, returnFrame_returned (by simpa [Lane.count] using hroom) hno]
  · have hrun := exec_laneFrameArrival_line (f := f) hb hm
    rw [if_pos hfcs, returnFrame_received (by simpa [Lane.count] using hroom) hmark hlen hchan] at hrun
    refine ⟨_, rfl, fun hl => ?_, fun hl hmal => ?_, fun hl hmal => ?_⟩
    · rw [hrun, receiveEnvelope_oversize hl]
    · rw [hrun, receiveEnvelope_malformed hl hmal]
    · rw [hrun, receiveEnvelope_routed hl hmal, routeEnvelope_link hchan]; rfl

/-- Settles O15: the fields of a header, a clear frame, and an envelope frame by its channel. -/
theorem laneFrameRouted : Obligations.LaneFrameRouted := by
  refine ⟨fun f hf => ?_, fun k n f s hb hm hfcs hmark hs hl hmac hport => ?_, fun k f s hb hm hfcs hmark hl hmal => ?_⟩
  · obtain ⟨hcontrol, hepoch, hfield, hseq⟩ := headerOf_read hf
    refine ⟨by rw [headerChan_val, hfield], by rw [headerOrigin_iff, hfield], ?_, ?_, ?_, hepoch, hseq⟩
    · rw [headerClear, hcontrol]
    · rw [headerBeacon, hcontrol]
    · rw [headerTest, hcontrol]
  · have hcongr : beginLookups ((s.countLane k .framesReceived).countLane k .octetsReceived f.length) = beginLookups s :=
      funext fun l => beginLookups_congr (by rfl) (by rfl) (by rfl) l
    rw [exec_laneFrameArrival_none hb hm, receiveLine_clear hfcs hmark hs hl, if_neg (by simp [hmac]),
      receiveClear_bound (boundPort_of_steering k n _ (by exact hport)), hcongr]
  · have hrun := exec_laneFrameArrival_none (f := f) hb hm
    rw [receiveLine_marked hfcs hmark, receiveEnvelope_routed hl hmal] at hrun
    refine ⟨_, _, _, rfl, rfl, rfl, fun hc hda ho => ?_, fun n hc hda ho hport => ?_, fun hc hda ho hk hst => ?_, fun hc hda ho => ?_,
      fun hc hda ho hclear hlock => ?_, fun hc hda ho hclear hlock => ?_, fun hc hda ho hclear => ?_, fun hc => ?_, fun hc hown => ?_,
      fun n hc hown hport => ?_, fun hc hown hport => ?_⟩
    · rw [hrun, routeEnvelope_foreign hc (by exact hda) ho]
    · rw [hrun, routeEnvelope_transit hc (by exact hda) ho]
      rcases hport with h | ⟨rfl, h⟩
      · simp [transitPort, portOfLane, h]
      · exact h
    · subst hk
      rw [hrun, routeEnvelope_untaken hc (by exact hda) ho (by exact hst)]
    · rw [hrun, routeEnvelope_management hc (by exact hda), routeManagement_notRequest ho]
    · rw [hrun, routeEnvelope_management hc (by exact hda), routeManagement_refused ho hclear (by exact hlock)]
    · exact ⟨_, by rw [hrun, routeEnvelope_management hc (by exact hda), routeManagement_taken ho hclear (by exact hlock)], takeRequest_taken ..⟩
    · rw [hrun, routeEnvelope_management hc (by exact hda), routeManagement_protected ho hclear]
    · rw [hrun, routeEnvelope_link hc]; rfl
    · rw [hrun, routeEnvelope_traffic hc (by exact hown.symm)]; rfl
    · rw [hrun, routeEnvelope_traffic hc (by exact hown.symm)]
      exact congrArg (fun t => Host.Outcome.next (settle t)) (steerAndSelect_bound hport)
    · rw [hrun, routeEnvelope_traffic hc (by exact hown.symm)]
      exact congrArg (fun t => Host.Outcome.next (settle t)) (steerAndSelect_unselected hport)

/-! ### Slot selection (R78, R79) -/

section select
variable {p : Place} {f : Frame} {own : Bool} {port : Option PortId} {s : State}

theorem selectFrame_unknown (h : selectSlot (s.chan (headerChan (headerOf f))) (headerOf f).epoch = none) : selectFrame p f own port s =
    if own then countAtLane p .ownFailed s else s.countChan (headerChan (headerOf f)) .unknownEpoch := by simp only [selectFrame, h]

theorem selectFrame_own {x : Letter} (h : selectSlot (s.chan (headerChan (headerOf f))) (headerOf f).epoch = some x) :
    selectFrame p f true port s = beginVerify p f true port x s := by simp only [selectFrame, h, if_true]

theorem selectFrame_peer {x : Letter} (h : selectSlot (s.chan (headerChan (headerOf f))) (headerOf f).epoch = some x) :
    selectFrame p f false port s =
      match windowCtr (windowTest (s.chan (headerChan (headerOf f))).config.window ((s.chan (headerChan (headerOf f))).inSlot x).top
          ((s.chan (headerChan (headerOf f))).inSlot x).marks (headerOf f).seq.toNat) with
      | some ctr => s.countChan (headerChan (headerOf f)) ctr
      | none => beginVerify p f false port x s := by
  simp only [selectFrame, h, Bool.false_eq_true, if_false] <;> rfl

/-- The work record of a frame of a place verified on slot `x` (R12, R79). -/
def verifyWork (p : Place) (f : Frame) (x : Letter) (s : State) : Work :=
  ⟨originOf p, .verify, headerChan (headerOf f), x, ((s.chan (headerChan (headerOf f))).inSlot x).load, (headerOf f).seq,
    ((s.chan (headerChan (headerOf f))).inSlot x).key, ((s.chan (headerChan (headerOf f))).inSlot x).salt⟩

theorem beginVerify_eq (x : Letter) : beginVerify p f own port x s =
    (s.updChan (headerChan (headerOf f)) fun ch => ch.setIn x
      { (s.chan (headerChan (headerOf f))).inSlot x with inFlight := ((s.chan (headerChan (headerOf f))).inSlot x).inFlight + 1 }).pushIn p
      (.verifying (verifyWork p f x s) f own port) := rfl

theorem inLine_setInLine (l : List InItem) (q : Place) : (s.setInLine p l).inLine q = if q = p then l else s.inLine q := by
  cases p <;> cases q <;> simp [State.setInLine, State.inLine] <;> split <;> rfl

theorem setInLine_chan (l : List InItem) (c : Chan) : (s.setInLine p l).chan c = s.chan c := by cases p <;> rfl

/-- A line that is set moves ports and lanes alone. -/
theorem setInLine_eq (l : List InItem) : s.setInLine p l = { s with ports := (s.setInLine p l).ports, lanes := (s.setInLine p l).lanes } := by
  cases p <;> rfl

/-- A frame handed to the cipher core joins the line of its place, its slot's in-flight count one higher, and nothing else moves (R79). -/
theorem beginVerify_spec (c : Chan) (hc : c = headerChan (headerOf f)) (x : Letter) : ∃ t, beginVerify p f own port x s = t ∧
    t.inLine p = s.inLine p ++ [.verifying ⟨originOf p, .verify, c, x, ((s.chan c).inSlot x).load, (headerOf f).seq, ((s.chan c).inSlot x).key,
      ((s.chan c).inSlot x).salt⟩ f own port] ∧
    (t.chan c).inSlot x = { (s.chan c).inSlot x with inFlight := ((s.chan c).inSlot x).inFlight + 1 } ∧
    (t.chan c).inSlot x.other = (s.chan c).inSlot x.other ∧ (∀ y, (t.chan c).outSlot y = (s.chan c).outSlot y) ∧
    (t.chan c).counters = (s.chan c).counters ∧ (∀ d, d ≠ c → t.chan d = s.chan d) ∧ (∀ q, q ≠ p → t.inLine q = s.inLine q) ∧
    t = { s with channels := t.channels, ports := t.ports, lanes := t.lanes } := by
  subst hc
  refine ⟨_, beginVerify_eq x, ?_, ?_, ?_, fun y => ?_, ?_, fun d hd => ?_, fun q hq => ?_, ?_⟩
  · rw [State.pushIn, inLine_setInLine, if_pos rfl, Kept.inLine_updChan]; rfl
  · rw [State.pushIn, setInLine_chan, State.updChan_chan_eq]; simp
  · rw [State.pushIn, setInLine_chan, State.updChan_chan_eq]; simp
  · rw [State.pushIn, setInLine_chan, State.updChan_chan_eq]; simp
  · rw [State.pushIn, setInLine_chan, State.updChan_chan_eq]; cases x <;> rfl
  · rw [State.pushIn, setInLine_chan]; simp [hd]
  · rw [State.pushIn, inLine_setInLine, if_neg hq, Kept.inLine_updChan]
  · rw [State.pushIn, setInLine_eq]; rfl

end select

/-- Settles O16: by the slot that holds the header's epoch. -/
theorem slotSelection : Obligations.SlotSelection := by
  rintro p f own port s c rfl
  refine ⟨fun h => ?_, fun x hr hstate hepoch => ⟨_, rfl, ?_, ?_, ?_⟩⟩
  · have hnone := selectSlot_none h
    refine ⟨fun ho => ?_, fun k ho hp => ?_⟩
    · rw [selectFrame_unknown hnone, ho]; rfl
    · rw [selectFrame_unknown hnone, ho, hp]; rfl
  all_goals have hsome := selectSlot_some hr hstate hepoch
  · rintro rfl hv
    rw [selectFrame_peer hsome, hv]; rfl
  · rintro rfl hv
    rw [selectFrame_peer hsome, hv]; rfl
  · intro h
    have hbegin : selectFrame p f own port s = beginVerify p f own port x s := by
      cases own with
      | true => exact selectFrame_own hsome
      | false =>
        rw [selectFrame_peer hsome, h.resolve_left (by simp)]; rfl
    rw [hbegin]
    exact beginVerify_spec _ rfl x

end Sys2Proof.Arrivals
end

section
/-! The statements on the outbound path: the end of a lookup, completion, entry to the buffer, and the control queue (R44, R46, R62, R66 to R71, R96, R108,
R111, R123). -/

namespace Sys2Proof.Outbound
open Sys2Proof.Machine Sys2Proof.Safety

/-! ### The step (log 2) -/

/-- Settles O1. -/
theorem stepRunsFrontCommand : Obligations.StepRunsFrontCommand := by
  intro s c rest h
  unfold step
  rw [h]

/-! ### The end of an outbound lookup (R46) -/

section lookups
variable {n : PortId} {s : State} {f : Frame} {r : Lookup}

theorem hitCounted_countHit (r : Lookup) (s : State) : HitCounted r s (countHit r s) := by
  refine ⟨fun i hi hg => ?_, fun h => ?_⟩
  · unfold countHit
    rw [hi]
    exact if_pos hg
  · unfold countHit
    cases hi : r.hit with
    | none => rfl
    | some i => exact if_neg (h.resolve_left (by simp [hi]))

/-- The counters of a port and its outbound line move apart from each other. -/
theorem exec_outboundLookupEnd {pre post : List OutItem} (hline : (s.port n).outLine = pre ++ { frame := f, stage := .lookup r } :: post)
    (hpre : ∀ x ∈ pre, ∀ r', x.stage ≠ .lookup r') :
    exec (.outboundLookupEnd n) s = .next (settle (actOutbound n pre.length f r.verdict (countHit r s))) := by
  show Host.Outcome.next (endOutboundLookup n s) = _
  have hget : (pre ++ ({ frame := f, stage := .lookup r } : OutItem) :: post)[pre.length]? = some { frame := f, stage := .lookup r } := by simp
  simp only [endOutboundLookup, hline, lookupIndex_eq pre post f r hpre, hget]

/-- The frame at a known place of a line leaves it. -/
theorem dropOut_eq {x : OutItem} {pre post : List OutItem} (hline : (s.port n).outLine = pre ++ x :: post) :
    dropOut n pre.length s = s.updPort n fun p => { p with outLine := pre ++ post } := by
  refine State.updPort_congr _ ?_
  simp only [hline]
  rw [List.eraseIdx_append_of_length_le (le_refl _), Nat.sub_self, List.eraseIdx_cons_zero]

/-- The frame at a known place of a line goes on. -/
theorem stageOut_eq {x y : OutItem} {pre post : List OutItem} (hline : (s.port n).outLine = pre ++ x :: post) :
    stageOut n pre.length y s = s.updPort n fun p => { p with outLine := pre ++ y :: post } := by
  refine State.updPort_congr _ ?_
  simp only [hline]
  rw [List.set_append_right _ _ (le_refl _), Nat.sub_self, List.set_cons_zero]

/-- A request for a sequence leaves the ports. -/
theorem assignSequence_ports (c : Chan) (o : Origin) (s : State) : (assignSequence c o s).2.ports = s.ports := by
  cases h : sequenceAnswer (s.chan c) with
  | refused ctr => rw [Slots.assignSequence_refused h]
  | assigned x slot q => rw [Slots.assignSequence_assigned h, reportChan_ports]; rfl

theorem assignSequence_port {c : Chan} {o : Origin} {t : State} {a : ChanCtr ⊕ (Work × Byte)} (h : assignSequence c o s = (a, t)) (m : PortId) :
    t.port m = s.port m := by
  have hports := assignSequence_ports c o s
  rw [h] at hports
  exact congrArg (fun v : Vector Port 4 => v[m]) hports

/-- The channel field that the part writes: its role as origin bit, and the channel (R4, R5). -/
theorem chanFieldOf_role (r : Role) (c : Chan) :
    chanFieldOf (roleBit r) c = BitVec.ofNat 16 ((if r = .campus then 32768 else 0) + c.val) := by cases r <;> rfl

end lookups

/-- Settles O10: by the verdict. -/
theorem outboundLookupEnds : Obligations.OutboundLookupEnds := by
  intro n s pre post f r hline hpre
  have hrun := exec_outboundLookupEnd hline hpre
  have hhit : ((countHit r s).port n).outLine = pre ++ { frame := f, stage := .lookup r } :: post := by rw [countHit_port, hline]
  have hdrop : ∀ t : State, (t.port n).outLine = pre ++ { frame := f, stage := .lookup r } :: post → ∀ ctr,
      dropOut n pre.length (t.countPort n ctr) = (t.countPort n ctr).updPort n fun p => { p with outLine := pre ++ post } :=
    fun t ht ctr => dropOut_eq (by rw [State.countPort_eq, State.updPort_port_eq]; exact ht)
  refine ⟨hitCounted_countHit r s, fun ctr h => ?_, fun h => ?_, fun c ctr t h ha => ?_, fun c w epoch t h ha => ?_⟩
  · rcases h with ⟨hv, rfl⟩ | ⟨hv, rfl⟩ | ⟨hv, rfl⟩ <;> rw [hrun, hv, ← hdrop _ hhit] <;> rfl
  · rw [hrun, h, ← stageOut_eq hhit]; rfl
  · have ht : (t.port n).outLine = pre ++ { frame := f, stage := .lookup r } :: post := by rw [assignSequence_port ha, hhit]
    rw [hrun, h, actOutbound, ha, ← hdrop (t.countChan c ctr) ht]
  · have ht : (t.port n).outLine = pre ++ { frame := f, stage := .lookup r } :: post := by rw [assignSequence_port ha, hhit]
    rw [hrun, h, actOutbound, ha]
    simp only
    rw [stageOut_eq ht, trafficHeader, chanFieldOf_role, countHit_role]; rfl

/-! ### Completion of a protect operation (R67, R71, R96) -/

section completion
variable {w : Work} {s : State}

theorem protectPasses_iff (ch : Channel) (w : Work) :
    protectPasses ch w = true ↔ (ch.outSlot w.letter).state ≠ .empty ∧ (ch.outSlot w.letter).load = w.load := by simp [protectPasses]

theorem completeOut_emptied {o : OutSlot} (h : o.state = .draining) (h1 : o.inFlight = 1) : completeOut o = emptyOut { o with inFlight := 0 } := by
  simp [completeOut, h, h1]

theorem completeOut_kept {o : OutSlot} (h : o.state ≠ .draining ∨ 1 < o.inFlight) : completeOut o = { o with inFlight := o.inFlight - 1 } := by
  refine if_neg ?_
  rintro ⟨hd, hz⟩
  have hz' : o.inFlight - 1 = 0 := hz
  rcases h with h | h
  · exact h hd
  · omega

theorem slotCompleted_frame (w : Work) (s : State) : slotCompleted w s = { s with channels := (slotCompleted w s).channels } := rfl

theorem slotCompleted_chan (w : Work) (s : State) :
    (slotCompleted w s).chan w.chan = (s.chan w.chan).setOut w.letter (completeOut ((s.chan w.chan).outSlot w.letter)) := State.updChan_chan_eq ..

theorem completeTraffic_passed (n : PortId) (i : Nat) (f : Frame) (h : Header) (hp : protectPasses (s.chan w.chan) w = true) :
    completeTraffic n i f w h s = stageOut n i ⟨f, .passed w.chan (sealText w.key w.salt (frameDa f) (frameSa f) h (innerBytes f))⟩
      (slotCompleted w s) := if_pos hp

theorem completeTraffic_dropped (n : PortId) (i : Nat) (f : Frame) (h : Header) (hp : ¬ protectPasses (s.chan w.chan) w = true) :
    completeTraffic n i f w h s = dropOut n i (((slotCompleted w s).countChan w.chan .droppedZeroized).countPort n .protectDropped) := if_neg hp

/-- Completion of a traffic frame moves its port and its channel alone. -/
theorem completeTraffic_eq (n : PortId) (i : Nat) (f : Frame) (h : Header) :
    completeTraffic n i f w h s = { s with
      channels := (completeTraffic n i f w h s).channels, ports := (completeTraffic n i f w h s).ports } ∧
    ∀ m, m ≠ n → (completeTraffic n i f w h s).port m = s.port m := by
  by_cases hp : protectPasses (s.chan w.chan) w = true
  · rw [completeTraffic_passed n i f h hp]
    exact ⟨rfl, fun m hm => by rw [stageOut, State.updPort_port, if_neg hm]; rfl⟩
  · rw [completeTraffic_dropped n i f h hp]
    exact ⟨rfl, fun m hm => by rw [dropOut, State.updPort_port, if_neg hm, State.countPort_eq, State.updPort_port, if_neg hm]; rfl⟩

/-- Completion of a traffic frame: its slot, and beside it the counters of its channel alone. -/
theorem completeTraffic_chan (n : PortId) (i : Nat) (f : Frame) (h : Header) (c : Chan) :
    (completeTraffic n i f w h s).chan c = if c = w.chan then
        if protectPasses (s.chan w.chan) w = true then (slotCompleted w s).chan w.chan
        else ((slotCompleted w s).chan w.chan).count .droppedZeroized
      else s.chan c := by
  by_cases hp : protectPasses (s.chan w.chan) w = true
  · rw [completeTraffic_passed n i f h hp, if_pos hp, stageOut, State.updPort_chan, slotCompleted, State.updChan_chan, State.updChan_chan_eq]
    split
    · next hc => subst hc; rfl
    · rfl
  · rw [completeTraffic_dropped n i f h hp, if_neg hp, dropOut, State.updPort_chan, State.countPort_eq, State.updPort_chan, State.countChan_eq,
      State.updChan_chan]
    split
    · next hc => subst hc; rfl
    · next hc => rw [slotCompleted, State.updChan_chan, if_neg hc]

end completion

/-- Settles O11: by whether the slot still holds the frame's key. -/
theorem trafficProtectCompletes : Obligations.TrafficProtectCompletes := by
  intro n i s f w h hitem
  have hrun : exec (.protectCompletion (.port n) i) s = .next (settle (completeTraffic n i f w h s)) := by
    show Host.Outcome.next (completeProtect (.port n) i s) = _
    unfold completeProtect
    simp only [hitem]
  obtain ⟨hframe, hports⟩ := completeTraffic_eq (w := w) (s := s) n i f h
  have hchan := completeTraffic_chan (w := w) (s := s) n i f h
  have hslots : ∀ x, ((completeTraffic n i f w h s).chan w.chan).outSlot x = ((slotCompleted w s).chan w.chan).outSlot x ∧
      ((completeTraffic n i f w h s).chan w.chan).inSlot x = ((slotCompleted w s).chan w.chan).inSlot x := fun x => by
    rw [hchan, if_pos rfl]; split <;> cases x <;> exact ⟨rfl, rfl⟩
  have hself : ((completeTraffic n i f w h s).chan w.chan).outSlot w.letter = completeOut ((s.chan w.chan).outSlot w.letter) := by
    rw [(hslots _).1, slotCompleted_chan, Channel.outSlot_setOut, if_pos rfl]
  refine ⟨_, hrun, fun hd hone => ?_, fun hkeep => ?_, fun hpass => ?_, fun hstale => ?_, ?_, fun x => ?_, fun d hd => ?_, hports, hframe⟩
  · rw [hself, completeOut_emptied hd hone]
    exact ⟨Kept.outCleared_emptyOut _, rfl, rfl⟩
  · rw [hself, completeOut_kept hkeep]
  · have hp := (protectPasses_iff (s.chan w.chan) w).2 hpass
    refine ⟨?_, ?_⟩
    · rw [completeTraffic_passed n i f h hp, stageOut, State.updPort_port_eq]; rfl
    · rw [hchan, if_pos rfl, if_pos hp, slotCompleted_chan]; cases w.letter <;> rfl
  · have hp : ¬ protectPasses (s.chan w.chan) w = true := fun hp => by
      obtain ⟨hne, hload⟩ := (protectPasses_iff (s.chan w.chan) w).1 hp
      exact hstale.elim hne fun hl => hl hload
    refine ⟨?_, ?_⟩
    · rw [completeTraffic_dropped n i f h hp, dropOut, State.updPort_port_eq, State.countPort_eq, State.updPort_port_eq]; rfl
    · rw [hchan, if_pos rfl, if_neg hp, slotCompleted_chan]; cases w.letter <;> rfl
  · rw [(hslots _).1, slotCompleted_chan, Channel.outSlot_setOut, if_neg (Letter.other_ne _)]
  · rw [(hslots _).2, slotCompleted_chan, Channel.inSlot_setOut]
  · rw [hchan, if_neg hd]

/-- Settles O12: a lane unit's frame and the frame in hand, each by whether the slot still holds its key. -/
theorem ownProtectCompletes : Obligations.OwnProtectCompletes := by
  refine ⟨fun k i s kind w h addr payload hitem => ?_, fun i s hand w h da sa msg hhand hstage => ?_⟩
  · have hrun : exec (.protectCompletion (.unit k) i) s = .next (settle (completeUnit k i kind w h addr payload s)) := by
      show Host.Outcome.next (completeProtect (.unit k) i s) = _
      unfold completeProtect
      simp only [hitem]
    rw [hrun]
    refine ⟨fun hp => ?_, fun hp => ?_⟩
    · unfold completeUnit
      rw [if_pos hp]; rfl
    · unfold completeUnit
      rw [if_neg (by simp [hp]), slotCompleted, State.countChan_eq, State.updChan_updChan]
  · have hrun : exec (.protectCompletion .agent i) s = .next (settle (completeHand hand w h da sa msg s)) := by
      show Host.Outcome.next (completeProtect .agent i s) = _
      unfold completeProtect
      simp only [hhand, hstage]
    rw [hrun]
    refine ⟨fun hp => ?_, fun hp => ?_⟩
    · unfold completeHand
      rw [if_pos hp]; rfl
    · unfold completeHand
      rw [if_neg (by simp [hp]), slotCompleted, State.countChan_eq, State.updChan_updChan]

/-! ### Entry to the outbound buffer (R68, R69, R108, R111) -/

section entry
variable {n : PortId} {s : State}

theorem judgeAppend_raised {p : Port} (h : p.pauseEnable = true ∧ p.inForce = false ∧ p.xoff ≤ bufOccupancy p) :
    judgeAppend p = { p with inForce := true, pendingPause := .on } := if_pos h

theorem judgeAppend_kept {p : Port} (h : p.pauseEnable = false ∨ p.inForce = true ∨ bufOccupancy p < p.xoff) : judgeAppend p = p := by
  refine if_neg ?_
  rintro ⟨he, hi, ho⟩
  rcases h with h | h | h
  · simp [h] at he
  · simp [h] at hi
  · omega

theorem judgeAppend_eq (p : Port) :
    judgeAppend p = { p with inForce := (judgeAppend p).inForce, pendingPause := (judgeAppend p).pendingPause } := by
  unfold judgeAppend beginPause; split <;> rfl

/-- The port after its oldest frame left its order and joined its buffer. -/
def withEntered (rest : List OutItem) (b : BufFrame) (p : Port) : Port := judgeAppend { p with outLine := rest, buffer := p.buffer ++ [b] }

theorem bufOccupancy_entered (rest : List OutItem) (b : BufFrame) (p : Port) :
    bufOccupancy { p with outLine := rest, buffer := p.buffer ++ [b] } = bufOccupancy p + b.bytes.length := by
  simp [bufOccupancy, totalBytes]

theorem requestEntry_overflow {x : OutItem} {rest : List OutItem} {b : BufFrame} (hline : (s.port n).outLine = x :: rest)
    (h : 524288 < bufOccupancy (s.port n) + b.bytes.length) (appended : State → State) :
    requestEntry n b appended (dropOut n 0 s) = s.updPort n fun p => { p.count .overflow with outLine := rest } := by
  have hnone : enterBuffer b ((dropOut n 0 s).port n) = none := by
    rw [dropOut, State.updPort_port_eq]; exact if_pos h
  rw [requestEntry, hnone]
  simp only [dropOut, State.countPort_eq, State.updPort_updPort]
  refine State.updPort_congr _ ?_
  simp only [hline]; rfl

theorem requestEntry_entered {x : OutItem} {rest : List OutItem} {b : BufFrame} (hline : (s.port n).outLine = x :: rest)
    (h : bufOccupancy (s.port n) + b.bytes.length ≤ 524288) (appended : State → State) :
    requestEntry n b appended (dropOut n 0 s) = appended (s.updPort n (withEntered rest b)) := by
  have hsome : enterBuffer b ((dropOut n 0 s).port n) = some (withEntered rest b (s.port n)) := by
    rw [dropOut, State.updPort_port_eq, hline]
    exact if_neg (Nat.not_lt.2 h)
  rw [requestEntry, hsome]
  simp only [dropOut, State.updPort_updPort]
  exact congrArg appended (State.updPort_congr _ rfl)

/-- What the port holds after the entry of a frame that counts `ctr` (R108, R111). -/
theorem entered_spec {t : State} {rest : List OutItem} {b : BufFrame} {ctr : PortCtr}
    (ht : t.port n = (withEntered rest b (s.port n)).count ctr) :
    (t.port n).buffer = (s.port n).buffer ++ [b] ∧ (t.port n).outLine = rest ∧
    ((s.port n).pauseEnable = true ∧ (s.port n).inForce = false ∧ (s.port n).xoff ≤ bufOccupancy (s.port n) + b.bytes.length →
      (t.port n).inForce = true ∧ (t.port n).pendingPause = .on) ∧
    ((s.port n).pauseEnable = false ∨ (s.port n).inForce = true ∨ bufOccupancy (s.port n) + b.bytes.length < (s.port n).xoff →
      (t.port n).inForce = (s.port n).inForce ∧ (t.port n).pendingPause = (s.port n).pendingPause) ∧
    (t.port n).counters = ((s.port n).count ctr).counters ∧
    t.port n = { s.port n with buffer := (t.port n).buffer, outLine := rest, inForce := (t.port n).inForce,
                               pendingPause := (t.port n).pendingPause, counters := (t.port n).counters } := by
  rw [ht]
  have hjudged := judgeAppend_eq { s.port n with outLine := rest, buffer := (s.port n).buffer ++ [b] }
  have hocc := bufOccupancy_entered rest b (s.port n)
  refine ⟨?_, ?_, fun h => ?_, fun h => ?_, ?_, ?_⟩
  · rw [withEntered, hjudged]; rfl
  · rw [withEntered, hjudged]; rfl
  · rw [withEntered, judgeAppend_raised (by rw [hocc]; exact h)]
    exact ⟨rfl, rfl⟩
  · rw [withEntered, judgeAppend_kept (by rw [hocc]; exact h)]
    exact ⟨rfl, rfl⟩
  · rw [withEntered, hjudged]; rfl
  · rw [withEntered, hjudged]; rfl

theorem exec_outboundBufferEntry_passed {f bytes : Frame} {c : Chan} {rest : List OutItem}
    (h : (s.port n).outLine = { frame := f, stage := .passed c bytes } :: rest) : exec (.outboundBufferEntry n) s =
      .next (requestEntry n { isProtected := true, bytes } (countProtected n c f.length) (dropOut n 0 s)) := by
  show Host.Outcome.next (enterOldest n s) = _
  unfold enterOldest; rw [h]

theorem exec_outboundBufferEntry_bypass {f : Frame} {rest : List OutItem}
    (h : (s.port n).outLine = { frame := f, stage := .bypass } :: rest) : exec (.outboundBufferEntry n) s =
      .next (requestEntry n { isProtected := false, bytes := f } (fun t => t.countPort n .bypassed) (dropOut n 0 s)) := by
  show Host.Outcome.next (enterOldest n s) = _
  unfold enterOldest; rw [h]

end entry

/-- Settles O13: a protected and a bypass frame, each by whether it fits. -/
theorem bufferEntry : Obligations.BufferEntry := by
  rintro n s f bytes stage rest hline (⟨c, rfl⟩ | ⟨rfl, rfl⟩)
  · rw [exec_outboundBufferEntry_passed hline]
    refine ⟨fun hfull => by rw [requestEntry_overflow hline (by exact hfull)], fun hroom => ?_⟩
    rw [requestEntry_entered hline (by exact hroom)]
    refine ⟨_, rfl, ?_⟩
    obtain ⟨hbuf, hout, hraise, hkeep, hctr, hport⟩ := entered_spec (n := n) (s := s) (b := ⟨true, bytes⟩) (rest := rest) (ctr := .protectedSent)
      (t := countProtected n c f.length (s.updPort n (withEntered rest ⟨true, bytes⟩)))
      (by rw [countProtected, State.countPort_eq, State.updPort_port_eq]; exact congrArg (·.count PortCtr.protectedSent) (State.updPort_port_eq ..))
    refine ⟨by rw [hbuf]; rfl, hout, hraise, hkeep, by rw [hctr]; rfl, hport, fun m hm => ?_, fun h => by simp at h, fun c' h => ?_, rfl⟩
    · rw [countProtected, State.countPort_eq, State.updPort_port, if_neg hm]
      show (s.updPort n _).port m = _
      rw [State.updPort_port, if_neg hm]
    · obtain rfl : c = c' := by simpa using h
      refine ⟨?_, fun d hd => ?_⟩
      · simp [countProtected]
      · simp [countProtected, hd]
  · rw [exec_outboundBufferEntry_bypass hline]
    refine ⟨fun hfull => by rw [requestEntry_overflow hline (by exact hfull)], fun hroom => ?_⟩
    rw [requestEntry_entered hline (by exact hroom)]
    refine ⟨_, rfl, ?_⟩
    obtain ⟨hbuf, hout, hraise, hkeep, hctr, hport⟩ := entered_spec (n := n) (s := s) (b := ⟨false, bytes⟩) (rest := rest) (ctr := .bypassed)
      (t := (s.updPort n (withEntered rest ⟨false, bytes⟩)).countPort n .bypassed)
      (by rw [State.countPort_eq, State.updPort_port_eq, State.updPort_port_eq])
    refine ⟨by rw [hbuf]; rfl, hout, hraise, hkeep, by rw [hctr]; rfl, hport, fun m hm => ?_, fun _ => rfl, fun c' h => by simp at h, rfl⟩
    rw [State.countPort_eq, State.updPort_port, if_neg hm, State.updPort_port, if_neg hm]

/-! ### The control queue (R71, R123) -/

section control

theorem replaceBeacon_eq {f g : CtlFrame} {pre post : List CtlFrame} (hg : g.kind = .beacon) (h : ∀ x ∈ pre ++ post, x.kind ≠ .beacon) :
    replaceBeacon f (pre ++ g :: post) = pre ++ f :: post := by
  have hid : ∀ l : List CtlFrame, (∀ x ∈ l, x.kind ≠ .beacon) → replaceBeacon f l = l := fun l hl => by
    unfold replaceBeacon
    conv_rhs => rw [← List.map_id l]
    exact List.map_congr_left fun x hx => if_neg (hl x hx)
  have hpre := hid pre fun x hx => h x (List.mem_append_left _ hx)
  have hpost := hid post fun x hx => h x (List.mem_append_right _ hx)
  unfold replaceBeacon at *
  rw [List.map_append, List.map_cons, hpre, hpost, if_pos hg]

theorem offerControl_replaced {f g : CtlFrame} {pre post : List CtlFrame} (hf : f.kind = .beacon) (hg : g.kind = .beacon)
    (h : ∀ x ∈ pre ++ post, x.kind ≠ .beacon) : offerControl f (pre ++ g :: post) = some (pre ++ f :: post) := by
  have hholds : holdsBeacon (pre ++ g :: post) = true := by simp [holdsBeacon, hg]
  rw [offerControl, if_pos ⟨hf, hholds⟩, replaceBeacon_eq hg h]

/-- A frame that replaces no beacon is appended where there is a place. -/
theorem offerControl_appended {f : CtlFrame} {q : List CtlFrame} (h : f.kind ≠ .beacon ∨ ∀ x ∈ q, x.kind ≠ .beacon) :
    offerControl f q = if q.length < 4 then some (q ++ [f]) else none := by
  refine if_neg ?_
  rintro ⟨hf, hq⟩
  rcases h with h | h
  · exact h hf
  · simp only [holdsBeacon, List.any_eq_true, beq_iff_eq] at hq
    obtain ⟨x, hx, hk⟩ := hq
    exact h x hx hk

end control

/-- Settles O27: by what the queue holds. -/
theorem controlQueueOffered : Obligations.ControlQueueOffered := by
  rintro k s s1 kind env rest f hline rfl rfl
  have hkind : (if kind = .beacon then CtlKind.beacon else CtlKind.test) = ctlKindOf kind := by cases kind <;> rfl
  have hbeacon : (ctlKindOf kind = .beacon) ↔ kind = .beacon := by cases kind <;> simp [ctlKindOf]
  have hskip : (if kind = .beacon then LaneCtr.beaconSkipped else LaneCtr.testSkipped) = skipCtr kind := by cases kind <;> rfl
  have hrun : exec (.controlQueueOffer k) s = .next (offerUnit k kind env (s.updLane k fun l => { l with unitLine := rest })) := by
    show Host.Outcome.next (offerOldest k s) = _
    unfold offerOldest; rw [hline]
  have hcontrol : ((s.updLane k fun l => { l with unitLine := rest }).lane k).control = (s.lane k).control := by rw [State.updLane_lane_eq]
  rw [hrun, hkind, hskip, offerUnit, hcontrol]
  refine ⟨fun pre g post hk hq hg hothers => ?_, fun h hlen => ?_, fun h hlen => ?_⟩
  · rw [hq, offerControl_replaced (hbeacon.2 hk) hg hothers]
  · rw [offerControl_appended (by simpa only [ne_eq, hbeacon] using h), if_pos hlen]
    simp only
    congr 3
    exact State.updLane_congr _ (by rw [hcontrol])
  · rw [offerControl_appended (by simpa only [ne_eq, hbeacon] using h), if_neg (by omega)]

end Sys2Proof.Outbound
end

section
/-! The statements on the inner port transmitter, on waiting timers and on the sender's offer (R95, R100, R103, R111 to R118, R123, R134, R161, R165 to R169). -/

namespace Sys2Proof.Waiting
open Sys2Proof.Machine Sys2Proof.Safety

/-! ### The inner port transmitter (R111, R113, R117, R118) -/

section ports
variable {n : PortId} {s : State}

theorem exec_portTransmitQueueFrame_idle (hb : blocked s = false) (htx : (s.port n).tx = none) (hp : (s.port n).pendingPause = .none)
    (hh : (s.port n).hold = none) : exec (.portTransmitQueueFrame n) s = .next (beginQueueFrame n s) := by
  show Host.Outcome.next (if blocked s || (s.port n).tx.isSome || (s.port n).pendingPause != .none || (s.port n).hold.isSome then s
    else beginQueueFrame n s) = _
  rw [if_neg (by simp [hb, htx, hp, hh])]

theorem exec_portTransmitQueueFrame_held (h : (s.port n).pendingPause ≠ .none ∨ (s.port n).hold ≠ none) :
    exec (.portTransmitQueueFrame n) s = .next s := by
  show Host.Outcome.next (if blocked s || (s.port n).tx.isSome || (s.port n).pendingPause != .none || (s.port n).hold.isSome then s
    else beginQueueFrame n s) = _
  rw [if_pos]
  rcases h with h | h
  · simp [h]
  · simp [Option.isSome_iff_ne_none.2 h]

theorem exec_portTransmitQueueFrame_empty (h : (s.port n).queue = []) : exec (.portTransmitQueueFrame n) s = .next s := by
  show Host.Outcome.next (if blocked s || (s.port n).tx.isSome || (s.port n).pendingPause != .none || (s.port n).hold.isSome then s
    else beginQueueFrame n s) = _
  unfold beginQueueFrame
  rw [h, ite_self]

theorem exec_portTransmitEnd {f : PortFrame} (htx : (s.port n).tx = some f) : exec (.portTransmitEnd n) s =
    .next (if f.final && s.agent.restart.isSome then coldReset (s.updPort n fun p => { p with tx := none }) else s.updPort n fun p => { p with tx := none }) := by
  show Host.Outcome.next (endPortTransmit n s) = _
  unfold endPortTransmit
  rw [htx]; rfl

theorem refreshExpired_eq (p : Port) : refreshExpired p = { p with refresh := none, pendingPause := if p.inForce then .on else p.pendingPause } := by
  unfold refreshExpired; split <;> rfl

end ports

/-- A command on a timer that has run out. -/
theorem next_due {s t : State} {now : Time} {timer : Option Timer} {r : Timer} (h : timer = some r) (hdue : r.len ≤ (now - r.start).toNat) :
    Host.Outcome.next (if timerDue now timer then t else s) = (.next t : Step) := by
  rw [if_pos (by rw [h]; exact timerDue_of_le hdue)]

/-- Settles O30. -/
theorem portTransmits : Obligations.PortTransmits := by
  refine ⟨fun n s f rest hb htx hp hh hq => ?_, fun n s h => ?_, fun n s f htx h => ?_, fun n s f r htx hf hr => ?_, fun n s hb htx hp => ?_,
    fun n s r h hdue => ?_, fun n s r h hdue => next_due h hdue⟩
  · rw [exec_portTransmitQueueFrame_idle hb htx hp hh]
    unfold beginQueueFrame
    rw [hq]; rfl
  · rcases h with h | h | h
    · exact exec_portTransmitQueueFrame_held (.inl h)
    · exact exec_portTransmitQueueFrame_held (.inr h)
    · exact exec_portTransmitQueueFrame_empty h
  · rw [exec_portTransmitEnd htx, if_neg]
    rcases h with h | h <;> simp [h]
  · refine ⟨_, exec_portTransmitEnd htx, ?_⟩
    rw [if_pos (by simp [hf, hr])]
    exact coldReset_isCold s.pins (s.updPort n fun p => { p with tx := none }) rfl
  · refine ⟨_, pauseQuanta (s.port n), by rw [PausePort.exec_portTransmitPause_idle hb htx, PausePort.beginPauseFrame_on hp], ?_, ?_⟩ <;>
      rw [State.updPort_port_eq]
    · rfl
  · have hexpired : refreshExpired = fun p : Port => { p with refresh := none, pendingPause := if p.inForce then .on else p.pendingPause } :=
      funext refreshExpired_eq
    rw [← hexpired]
    exact next_due h hdue

/-! ### Grace, schedule and WTR (R95, R100, R103, R134) -/

/-- Each kind has its own bit (R165, R177). -/
theorem kindBit_getLsbD (i : Nat) (k : Kind)
    (h : [Kind.lane, .protect, .loop, .test, .queue, .switched, .soft, .halted, .first, .faded, .missed, .authfail][i]? = some k) (j : Nat) :
    (kindBit k).getLsbD j = decide (j = i) := by
  have hi : i < 12 := (List.getElem?_eq_some_iff.1 h).1
  have hall : ∀ i : Fin 12, ∀ j : Fin 12, ∀ k ∈ [Kind.lane, .protect, .loop, .test, .queue, .switched, .soft, .halted, .first, .faded, .missed, .authfail][i]?,
      (kindBit k).getLsbD j = decide (j = i) := by decide
  by_cases hj : j < 12
  · have := hall ⟨i, hi⟩ ⟨j, hj⟩ k h
    simpa [Fin.ext_iff] using this
  · rw [BitVec.getLsbD_of_ge _ _ (by omega)]
    simp; omega

section channels
variable {c : Chan} {x : Letter} {s : State}

theorem exec_graceExpiry {r : Timer} (hstate : ((s.chan c).inSlot x).state = .fading) (htimer : ((s.chan c).inSlot x).graceTimer = some r)
    (hdue : r.len ≤ (s.time - r.start).toNat) : exec (.graceExpiry c x) s =
      .next (settle (reportChan c (kindBit .faded) (s.updChan c fun ch => ch.setIn x (emptyIn (ch.inSlot x))))) := by
  show Host.Outcome.next (if graceDue s c x then graceExpired c x s else s) = _
  rw [if_pos]
  · rfl
  · rw [graceDue, hstate, htimer, timerDue_of_le hdue]; rfl

theorem switchMade_schedule (ch : Channel) (t : Option Time) : switchMade { ch with schedule := t } = switchMade ch := by
  cases ch; rfl

theorem makeSwitch_schedule (now : Time) (ch : Channel) (t : Option Time) :
    makeSwitch now { ch with schedule := t } = { makeSwitch now ch with schedule := t } := by
  have hold : oldSlot { ch with schedule := t } = oldSlot ch := rfl
  have htarget : switchTarget { ch with schedule := t } = switchTarget ch := rfl
  have hset : ∀ (d : Channel) y o, ({ d with schedule := t } : Channel).setOut y o = { d.setOut y o with schedule := t } := fun d y o => by cases y <;> rfl
  unfold makeSwitch
  rw [hold, htarget]
  cases oldSlot ch with
  | none => exact hset ch _ _
  | some y =>
    simp only [hset]; rfl

theorem exec_scheduleDue_before {due : Time} (h : (s.chan c).schedule = some due) (hlt : s.time < due) : exec (.scheduleDue c) s = .next s := by
  show Host.Outcome.next (if scheduleReached s c then scheduleFell c s else s) = _
  rw [if_neg]
  rw [scheduleReached, h]
  simpa using hlt

theorem exec_scheduleDue_reached {due : Time} (h : (s.chan c).schedule = some due) (hle : due ≤ s.time) : exec (.scheduleDue c) s =
    .next (settle (scheduledSwitch c (s.updChan c fun ch => { ch with schedule := none }))) := by
  show Host.Outcome.next (if scheduleReached s c then scheduleFell c s else s) = _
  rw [if_pos]
  · rfl
  · rw [scheduleReached, h]
    simpa using hle

theorem scheduledSwitch_made (h : switchMade (s.chan c) = true) :
    scheduledSwitch c s = (s.updChan c (makeSwitch s.time)).updAgent fun a => { a with fifo := addKinds c (kindBit .switched) a.fifo } := by
  rw [scheduledSwitch, if_pos h, reportChan_kindBit]

/-- A schedule that falls when its switch can be made (R100). -/
theorem scheduledSwitch_removed (h : switchMade (s.chan c) = true) :
    scheduledSwitch c (s.updChan c fun ch => { ch with schedule := none }) =
      (s.updChan c fun ch => { makeSwitch s.time ch with schedule := none }).updAgent fun a => { a with fifo := addKinds c (kindBit .switched) a.fifo } := by
  have hcomm : (fun ch : Channel => makeSwitch s.time { ch with schedule := none }) = fun ch => { makeSwitch s.time ch with schedule := none } :=
    funext fun ch => makeSwitch_schedule s.time ch none
  rw [scheduledSwitch_made (by rw [State.updChan_chan_eq, switchMade_schedule, h]), State.updChan_time, State.updChan_updChan, hcomm]

theorem scheduledSwitch_missed (h : switchMade (s.chan c) = false) :
    scheduledSwitch c s = s.updAgent fun a => { a with fifo := addKinds c (kindBit .missed) a.fifo } := by
  rw [scheduledSwitch, if_neg (by simp [h]), reportChan_kindBit]

end channels

section wtr
variable {s : State}

/-- Classes that hold no request. -/
theorem arbiter_no_request (available : Bool) (sel : Option PortId) : arbiter available #v[.none, .none, .none, .none] sel = none := by
  cases available <;> rfl

/-- A lane that is not forced, failed nor asked for, and whose class stands at none, stays there (R132). -/
theorem judgeClass_none {n : PortId} (hforce : s.prot.force ≠ some n) (hmanual : s.prot.manual ≠ some n) (hfailed : workingFailed s n = false)
    (hclass : s.prot.selection = some n → s.prot.classes[n] = .none) : judgeClass s n = .none := by
  unfold judgeClass
  rw [if_neg hforce, if_neg (by simp [hfailed]), if_neg hmanual]
  split
  · next hsel => rw [hclass hsel]
  · rfl

/-- A run of the arbiter that finds no request ends the selection (R133 to R135). -/
theorem runArbiter_no_request {n : PortId} (hr : s.role = .rack) (hsel : s.prot.selection = some n) (hjudge : ∀ m, judgeClass s m = .none) :
    runArbiter s = moveBridging (some n) none (s.updProt fun p =>
      { p with classes := #v[.none, .none, .none, .none], wtrTimer := none, selection := none }) := by
  unfold runArbiter
  simp only [hr, hjudge, arbiter_no_request, hsel, reduceCtorEq, if_false]
  rw [if_neg]
  fin_cases n <;> simp

/-- A bridging that ends cuts what L4 transmits of its buffer (R135). -/
theorem moveBridging_to_none (n : PortId) (t : State) : moveBridging (some n) none t = reportDevice .protect (cutBuffer 4 n t) := rfl

end wtr

/-- Settles O32: the FIFO and its bits, the timers of a channel, and those of the controller and the sender. -/
theorem waitTimersExpire : Obligations.WaitTimersExpire := by
  refine ⟨⟨fun c ks k fifo pre post => ⟨fun h hpre => ?_, addKinds_absent c ks fifo⟩, fun c ks s => ⟨fun h => ?_, fun h => ?_⟩, kindBit_getLsbD⟩,
    ⟨fun c x s r hstate htimer hdue => ?_, fun c s due h => ⟨exec_scheduleDue_before h, fun hle hno => ?_, fun hle hyes => ?_⟩⟩,
    fun s n r htimer hdue hrole hsel hquiet => ?_, fun s r h hdue => next_due h hdue⟩
  · rw [h, addKinds_present c ks k pre post hpre]
  · exact if_pos h
  · exact if_neg h
  · refine ⟨_, exec_graceExpiry hstate htimer hdue, ?_⟩
    rw [reportChan_kindBit]
    simp only [State.updAgent_chan, State.updChan_chan_eq, Channel.inSlot_setIn, if_true]
    refine ⟨Kept.inCleared_emptyIn _, rfl, rfl, trivial, fun d hd => by rw [State.updChan_chan, if_neg hd], rfl, rfl⟩
  · rw [exec_scheduleDue_reached h hle, scheduledSwitch_missed]
    rw [State.updChan_chan_eq, switchMade_schedule, hno]
  · rw [exec_scheduleDue_reached h hle, scheduledSwitch_removed hyes]
  · have hrun : exec .wtrExpiry s = .next (settle (runArbiter (s.updProt fun p =>
        { p with wtrTimer := none, classes := p.classes.set n .none }))) := by
      refine (next_due htimer hdue).trans ?_
      unfold wtrExpired State.updProt
      beta_reduce
      rw [hsel]
    rw [runArbiter_no_request (by exact hrole) (by exact hsel), moveBridging_to_none] at hrun
    · refine ⟨_, hrun, ?_⟩
      obtain ⟨hcut, hkept⟩ := cutBuffer_spec 4 n ((s.updProt fun p => { p with wtrTimer := none, classes := p.classes.set n .none }).updProt fun p =>
        { p with classes := #v[.none, .none, .none, .none], wtrTimer := none, selection := none })
      simp only [reportDevice_prot, reportDevice_lane, cutBuffer_prot]
      refine ⟨rfl, rfl, fun m => by fin_cases m <;> rfl, rfl, ?_, fun j hj => ?_, fun x p htx hx => ?_, fun h => ?_, ?_⟩
      · rw [reportDevice_eq, cutBuffer_agent]; rfl
      · rw [cutBuffer_lane_ne n _ hj]; rfl
      · rw [hcut ⟨x.bytes, p, by rw [← hx]; exact htx⟩, State.updLane_lane_eq]; rfl
      · rw [hkept fun bytes p htx => h _ p htx rfl]; rfl
      · rw [reportDevice_eq, cutBuffer_eq]; rfl
    · intro m
      obtain ⟨hforce, hmanual, hfailed⟩ := hquiet m
      refine judgeClass_none (by exact hforce) (by exact hmanual) (by exact hfailed) fun h => ?_
      obtain rfl : n = m := by simpa [hsel] using h
      simp

end Sys2Proof.Waiting
end

section
/-! The statements on the sender and the runner (R54, R92, R123, R158 to R161, R167, R169). -/

namespace Sys2Proof.Agents
open Sys2Proof.Machine Sys2Proof.Safety

/-! ### The frame in hand is offered (R161) -/

section offer
variable {s : State} {hand : Hand} {bytes : Frame} {octets : Option Nat}

theorem exec_senderSend (hhand : s.agent.hand = some hand) (hstage : hand.stage = .ready bytes octets) :
    exec .senderSend s = .next (settle (sendHand hand.place hand.kind bytes octets s)) := by
  show Host.Outcome.next (senderOffers s) = _
  simp only [senderOffers, hhand, hstage]

theorem sendHand_lane (kind : HandKind) (k : LaneId) : sendHand (.lane k) kind bytes octets s =
    if (s.lane k).control.length < 4 then
      handSent kind octets (s.updLane k fun l => { l with control := l.control ++ [{ kind := handCtl kind, bytes }] })
    else if (s.lane k).loopMode = .line then loseHand kind s else s := by
  have hkind : handCtl kind ≠ .beacon := by cases kind <;> simp [handCtl]
  rw [sendHand, Outbound.offerControl_appended (.inl hkind)]
  by_cases hroom : (s.lane k).control.length < 4
  · rw [if_pos hroom, if_pos hroom]
    exact congrArg (handSent kind octets) (State.updLane_congr _ rfl)
  · rw [if_neg hroom, if_neg hroom]

theorem sendHand_port_taken (kind : HandKind) {n : PortId} (h : totalBytes ((s.port n).queue.map (·.bytes)) + bytes.length ≤ 131072) :
    sendHand (.port n) kind bytes octets s =
      handSent kind octets (s.updPort n fun p => { p with queue := p.queue ++ [{ bytes, final := handFinal kind }] }) := by
  have htaken : deliver n { bytes, final := handFinal kind } s =
      (s.updPort n fun p => { p with queue := p.queue ++ [{ bytes, final := handFinal kind }] }, true) := if_neg (Nat.not_lt.2 h)
  rw [sendHand, htaken]; rfl

theorem sendHand_port_lost (kind : HandKind) {n : PortId} (h : 131072 < totalBytes ((s.port n).queue.map (·.bytes)) + bytes.length) :
    sendHand (.port n) kind bytes octets s = loseHand kind (s.countPort n .deliveryOverflow) := by
  have hlost : deliver n { bytes, final := handFinal kind } s = (s.countPort n .deliveryOverflow, false) := if_pos h
  rw [sendHand, hlost]; rfl

theorem loseReply_kept {final : Bool} (h : s.agent.restart = none ∨ final = false) : loseReply final s = s.countAgent .replyLost := by
  refine if_neg ?_
  show ¬ (final && s.agent.restart.isSome) = true
  rcases h with h | h <;> simp [h]

/-- A lost reply that a restart waited for begins the cold reset (R169). -/
theorem loseReply_isCold {r : Timer} (h : s.agent.restart = some r) : IsCold s.pins s (loseReply true s) := by
  have hcold : loseReply true s = coldReset (s.countAgent .replyLost) := if_pos (by simp [Agent.count, h])
  rw [hcold]
  exact coldReset_isCold s.pins (s.countAgent .replyLost) rfl

end offer

/-- Settles O34: by the place of the frame in hand and the room there. -/
theorem senderOffers : Obligations.SenderOffers := by
  intro s hand bytes octets hhand hstage
  have hrun := exec_senderSend hhand hstage
  refine ⟨handSent hand.kind octets, loseHand hand.kind, fun t => ?_, fun t final hk hr => ?_, fun t r hk hr => ?_, fun t devices entries hk => ?_,
    fun k hp hroom => ?_, fun k hp hfull hmode => ?_, fun k hp hfull hmode => ?_, fun n hp hroom => ?_, fun n hp hfull => ?_⟩
  · cases octets <;> rfl
  · rw [hk]
    exact loseReply_kept (by exact hr)
  · rw [hk]
    exact loseReply_isCold (s := t.updAgent fun a => { a with hand := none }) hr
  · rw [hk]; rfl
  · rw [hrun, hp, sendHand_lane, if_pos hroom]
  · rw [hrun, hp, sendHand_lane, if_neg (by omega), if_neg hmode, settle_of_hand hhand]
  · rw [hrun, hp, sendHand_lane, if_neg (by omega), if_pos hmode]
  · rw [hrun, hp, sendHand_port_taken _ hroom]
  · rw [hrun, hp, sendHand_port_lost _ hfull]

/-! ### What an event ends with at the sender (R160, R161, R167) -/

section judged
variable {s : State}

theorem noticeDue_of_hand {h : Hand} (hh : s.agent.hand = some h) : noticeDue s = false := by simp [noticeDue, hh]

theorem buildNotice_of_hand {h : Hand} (hh : s.agent.hand = some h) : buildNotice s = s := by
  unfold buildNotice
  rw [if_neg (by simp [noticeDue_of_hand hh])]

theorem takeReply_of_none (h : s.agent.reply = none) : takeReply s = s := by
  unfold takeReply
  rw [h]
  cases s.agent.hand <;> rfl

theorem unmaskedLeft_eq_zero_iff (masks : KindSet) (fifo : List (Chan × KindSet)) :
    unmaskedLeft masks fifo = 0 ↔ ∀ e ∈ fifo, e.2 &&& ~~~masks = 0 := by
  simp [unmaskedLeft, List.filter_eq_nil_iff]

theorem live_iff : ((s.chan 0).outA.state == .live || (s.chan 0).outB.state == .live) = true ↔ ∃ x, ((s.chan 0).outSlot x).state = .live := by
  rw [Bool.or_eq_true, beq_iff_eq, beq_iff_eq]
  constructor
  · rintro (h | h)
    · exact ⟨.a, h⟩
    · exact ⟨.b, h⟩
  · rintro ⟨_ | _, h⟩
    · exact .inl h
    · exact .inr h

/-- The conditions of R167, said as the manual says them. -/
theorem noticeDue_iff (hh : s.agent.hand = none) (hr : s.agent.reply = none) : noticeDue s = true ↔
    (s.agent.devices &&& ~~~s.agent.masks ≠ 0 ∨ unmaskedLeft s.agent.masks s.agent.fifo ≠ 0) ∧ s.agent.holdoff = none ∧ s.agent.dest ≠ none ∧
      (lockBit s = false ∨ ∃ x, ((s.chan 0).outSlot x).state = .live) := by
  rw [← live_iff]
  simp [noticeDue, hh, hr, Option.isSome_iff_ne_none, and_assoc]
  tauto

theorem noticeDue_false (hh : s.agent.hand = none) (hr : s.agent.reply = none)
    (h : s.agent.devices &&& ~~~s.agent.masks = 0 ∧ (∀ e ∈ s.agent.fifo, e.2 &&& ~~~s.agent.masks = 0) ∨ s.agent.holdoff ≠ none ∨ s.agent.dest = none ∨
      lockBit s = true ∧ ∀ x, ((s.chan 0).outSlot x).state ≠ .live) : noticeDue s = false := by
  rw [← Bool.not_eq_true, noticeDue_iff hh hr]
  rintro ⟨hpending, hoff, hdest, hlock⟩
  rcases h with ⟨hdev, hfifo⟩ | h | h | ⟨hl, hno⟩
  · exact hpending.elim (· hdev) (· ((unmaskedLeft_eq_zero_iff _ _).2 hfifo))
  · exact h hoff
  · exact hdest h
  · rcases hlock with hlock | ⟨x, hx⟩
    · simp [hl] at hlock
    · exact hno x hx

/-- A request for a sequence leaves the own address. -/
theorem assignSequence_ownAddr {c : Chan} {o : Origin} {t : State} {a : ChanCtr ⊕ (Work × Byte)} (h : assignSequence c o s = (a, t)) :
    t.ownAddr = s.ownAddr := by
  cases hans : sequenceAnswer (s.chan c) with
  | refused ctr => rw [Slots.assignSequence_refused hans] at h; cases h; rfl
  | assigned x slot q =>
    rw [Slots.assignSequence_assigned hans] at h
    cases h
    rw [reportChan_eq]; rfl

/-- A message taken on an unlocked part goes out CLEAR (R160). -/
theorem takeMessage_clear (place : Place) (kind : HandKind) (da : Addr) (msg : List Byte) (hl : lockBit s = false) :
    takeMessage place kind da msg s = some (s.updAgent fun a =>
      { a with hand := some ⟨place, kind, .ready (clearFrame da s.ownAddr ⟨0x60, 0, 0x8000, 1⟩ (padMessage 28 msg)) none⟩ }) := by
  unfold takeMessage
  rw [if_neg (by simp [hl])]; rfl

/-- A message taken on a locked part that has its sequence (R160, R71). -/
theorem takeMessage_protected (place : Place) (kind : HandKind) (da : Addr) (msg : List Byte) (hl : lockBit s = true) {w : Work} {epoch : Byte}
    {t : State} (ha : assignSequence 0 .agent s = (.inr (w, epoch), t)) : takeMessage place kind da msg s = some (t.updAgent fun a =>
      { a with hand := some ⟨place, kind, .protecting w ⟨0x40, epoch, 0x8000, w.seq⟩ da s.ownAddr (padMessage 44 msg)⟩ }) := by
  unfold takeMessage
  rw [if_pos hl, ha, ← assignSequence_ownAddr ha]; rfl

theorem takeMessage_none (place : Place) (kind : HandKind) (da : Addr) (msg : List Byte) (hl : lockBit s = true) {ctr : ChanCtr}
    {t : State} (ha : assignSequence 0 .agent s = (.inl ctr, t)) : takeMessage place kind da msg s = none := by
  unfold takeMessage
  rw [if_pos hl, ha]

theorem takeReply_taken {r : Reply} {t : State} (hh : s.agent.hand = none) (hr : s.agent.reply = some r)
    (ht : takeMessage r.place (.reply r.final) r.sa r.msg (s.updAgent fun a => { a with reply := none }) = some t) : takeReply s = t := by
  unfold takeReply
  simp only [hh, hr, ht]

theorem takeReply_lost {r : Reply} (hh : s.agent.hand = none) (hr : s.agent.reply = some r)
    (ht : takeMessage r.place (.reply r.final) r.sa r.msg (s.updAgent fun a => { a with reply := none }) = none) :
    takeReply s = loseReply r.final (s.updAgent fun a => { a with reply := none }) := by
  unfold takeReply
  simp only [hh, hr, ht]

end judged

/-! #### Entries taken from the channel FIFO (R167) -/

/-- The entry of a channel has an unmasked kind pending. -/
def unmasked (masks : KindSet) (e : Chan × KindSet) : Bool := e.2 &&& ~~~masks != 0

/-- What stays of an entry that a notice passed: its masked kinds, and nothing of one that has none. -/
def leftBehind (masks : KindSet) (e : Chan × KindSet) : Option (Chan × KindSet) :=
  if e.2 &&& ~~~masks ≠ 0 ∧ e.2 &&& masks = 0 then none else some (e.1, e.2 &&& masks)

theorem and_eq_self_of_and_not {k m : KindSet} (h : k &&& ~~~m = 0) : k &&& m = k := by
  refine BitVec.eq_of_getLsbD_eq fun i hi => ?_
  have hbit : (k &&& ~~~m).getLsbD i = false := by rw [h]; simp
  simp only [BitVec.getLsbD_and, BitVec.getLsbD_not, hi, decide_true, Bool.true_and] at hbit ⊢
  cases hk : k.getLsbD i
  · rfl
  · rw [hk] at hbit
    simpa using hbit

theorem and_and_not (k m : KindSet) : k &&& m &&& ~~~m = 0 := by
  refine BitVec.eq_of_getLsbD_eq fun i hi => ?_
  cases hm : m.getLsbD i <;> simp [hi, hm]

/-- At most `n` entries are taken from the head on, and of the entries passed the masked kinds stay (R167). -/
theorem takeEntries_spec (masks : KindSet) (n : Nat) (fifo : List (Chan × KindSet)) :
    (takeEntries masks n fifo).1 = ((fifo.filter (unmasked masks)).take n).map (fun e => (e.1, e.2 &&& ~~~masks)) ∧
    ∃ pre post, fifo = pre ++ post ∧ (pre.filter (unmasked masks)).length = min n (fifo.filter (unmasked masks)).length ∧
      (takeEntries masks n fifo).2 = pre.filterMap (leftBehind masks) ++ post := by
  induction fifo generalizing n with
  | nil => exact ⟨by simp [takeEntries], [], [], by simp [takeEntries]⟩
  | cons e rest ih =>
    obtain ⟨c, k⟩ := e
    cases n with
    | zero => exact ⟨by simp [takeEntries], [], (c, k) :: rest, rfl, by simp, rfl⟩
    | succ n =>
      by_cases hk : k &&& ~~~masks = 0
      · obtain ⟨htaken, pre, post, hfifo, hlen, hleft⟩ := ih (n + 1)
        have hno : unmasked masks (c, k) = false := by simp [unmasked, hk]
        have hstay : leftBehind masks (c, k) = some (c, k) := by simp [leftBehind, hk, and_eq_self_of_and_not hk]
        have hstep : takeEntries masks (n + 1) ((c, k) :: rest) =
            ((takeEntries masks (n + 1) rest).1, (c, k) :: (takeEntries masks (n + 1) rest).2) := by rw [takeEntries, if_pos hk]
        rw [hstep, List.filter_cons_of_neg (by simp [hno])]
        exact ⟨htaken, (c, k) :: pre, post, by rw [hfifo]; rfl, by rw [List.filter_cons_of_neg (by simp [hno]), hlen],
          by rw [hleft, List.filterMap_cons_some hstay]; rfl⟩
      · obtain ⟨htaken, pre, post, hfifo, hlen, hleft⟩ := ih n
        have hyes : unmasked masks (c, k) = true := bne_iff_ne.2 hk
        have hstep : takeEntries masks (n + 1) ((c, k) :: rest) = ((c, k &&& ~~~masks) :: (takeEntries masks n rest).1,
            if k &&& masks = 0 then (takeEntries masks n rest).2 else (c, k &&& masks) :: (takeEntries masks n rest).2) := by
          rw [takeEntries, if_neg hk]
        rw [hstep, List.filter_cons_of_pos hyes]
        refine ⟨by simp [htaken], (c, k) :: pre, post, by rw [hfifo]; rfl, ?_, ?_⟩
        · rw [List.filter_cons_of_pos hyes, List.length_cons, List.length_cons, hlen]; omega
        · by_cases hm : k &&& masks = 0
          · have hgone : leftBehind masks (c, k) = none := if_pos ⟨hk, hm⟩
            rw [if_pos hm, List.filterMap_cons_none hgone]
            exact hleft
          · have hstay : leftBehind masks (c, k) = some (c, k &&& masks) := if_neg fun h => hm h.2
            rw [if_neg hm, List.filterMap_cons_some hstay]
            exact congrArg _ hleft

/-- The channels that still wait are those that the notice did not pass (R167). -/
theorem unmaskedLeft_leftBehind (masks : KindSet) (pre post : List (Chan × KindSet)) :
    unmaskedLeft masks (pre.filterMap (leftBehind masks) ++ post) = (post.filter (unmasked masks)).length := by
  have hpre : (pre.filterMap (leftBehind masks)).filter (unmasked masks) = [] := by
    rw [List.filter_eq_nil_iff]
    intro e he
    obtain ⟨d, -, hd⟩ := List.mem_filterMap.1 he
    unfold leftBehind at hd
    split at hd
    · cases hd
    · cases hd
      simp [unmasked, and_and_not]
  show ((pre.filterMap (leftBehind masks) ++ post).filter (unmasked masks)).length = _
  rw [List.filter_append, hpre, List.nil_append]

/-- A due notice of what the channel FIFO gives is built and taken (R160, R167). -/
theorem buildNotice_taken {s t : State} {place : Place} {addr : Addr} {entries fifo : List (Chan × KindSet)} {left : Nat}
    (hdue : noticeDue s = true) (hdest : s.agent.dest = some (place, addr))
    (htaken : takeEntries s.agent.masks 32 s.agent.fifo = (entries, fifo)) (hleft : unmaskedLeft s.agent.masks fifo = left)
    (ht : takeMessage place (.notice (s.agent.devices &&& ~~~s.agent.masks) entries) addr
      (noticeMessage s (s.agent.devices &&& ~~~s.agent.masks) entries left)
      (s.updAgent fun a => { a with devices := a.devices &&& a.masks, fifo, holdoff := some (startTimer s 1000) }) = some t) :
    buildNotice s = t := by
  rw [buildNotice, if_pos hdue, hdest]
  subst hleft
  simp only [Config.noticeEntries, htaken, ht]

/-- Settles O55: a frame in hand, no notice due, a reply, a notice. -/
theorem senderJudged : Obligations.SenderJudged := by
  refine ⟨fun s h hh => settle_of_hand hh, fun s hh hr h => settle_of_idle hh hr (noticeDue_false hh hr h), fun s r hh hr hl => ?_,
    fun s s1 r hh hr hl hs1 => ⟨fun w epoch t ha => ?_, fun ctr t ha hfinal => ?_, fun ctr t x ha hfinal hre => ?_⟩,
    fun s place addr n hh hr hoff hdest hn hpending => ?_⟩
  · rw [settle, takeReply_taken hh hr (takeMessage_clear _ _ _ _ (by exact hl)), buildNotice_of_hand rfl]
    rfl
  · subst hs1
    rw [settle, takeReply_taken hh hr (takeMessage_protected _ _ _ _ (by exact hl) ha), buildNotice_of_hand rfl]
    rfl
  · subst hs1
    rw [settle, takeReply_lost hh hr (takeMessage_none _ _ _ _ (by exact hl) ha), loseReply_kept (by exact hfinal.symm), settle,
      takeReply_of_none (s := State.countAgent _ _) rfl]
  · subst hs1
    have hcold := loseReply_isCold (s := s.updAgent fun a => { a with reply := none }) hre
    rw [settle, takeReply_lost hh hr (takeMessage_none _ _ _ _ (by exact hl) ha), hfinal]
    have hquiet : noticeDue (loseReply true (s.updAgent fun a => { a with reply := none })) = false := by
      obtain ⟨-, -, -, -, -, -, -, -, -, -, -, -, -, -, -, hagent⟩ := hcold
      unfold noticeDue
      rw [hagent]; rfl
    unfold buildNotice
    rw [if_neg (by simp [hquiet])]
    exact hcold
  · obtain ⟨htaken, pre, post, hfifo, hlen, hleft⟩ := takeEntries_spec s.agent.masks 32 s.agent.fifo
    have hcount : unmaskedLeft s.agent.masks (takeEntries s.agent.masks 32 s.agent.fifo).2 = n - min 32 n := by
      have hsplit : n = (pre.filter (unmasked s.agent.masks)).length + (post.filter (unmasked s.agent.masks)).length := by
        rw [hn, ← List.length_append, ← List.filter_append, ← hfifo]; rfl
      have hn' : (s.agent.fifo.filter (unmasked s.agent.masks)).length = n := hn.symm
      rw [hleft, unmaskedLeft_leftBehind]
      rw [hn'] at hlen
      omega
    have hdue : (lockBit s = false ∨ ∃ x, ((s.chan 0).outSlot x).state = .live) → noticeDue s = true := fun hlock =>
      (noticeDue_iff hh hr).2 ⟨hpending.imp_right fun h => by
        have : unmaskedLeft s.agent.masks s.agent.fifo = n := hn.symm
        omega, hoff, by simp [hdest], hlock⟩
    refine ⟨_, _, _, _, _, rfl, rfl, ⟨pre, post, hfifo, ?_, rfl⟩, rfl, rfl, fun hl => ?_, fun w epoch t hl hlive ha => ?_⟩
    · exact hlen.trans (by rw [hn]; rfl)
    · rw [settle, takeReply_of_none hr]
      exact buildNotice_taken (hdue (.inl hl)) hdest (Prod.ext htaken hleft) (hleft ▸ hcount) (takeMessage_clear _ _ _ _ (by exact hl))
    · rw [settle, takeReply_of_none hr]
      exact buildNotice_taken (hdue (.inr hlive)) hdest (Prod.ext htaken hleft) (hleft ▸ hcount)
        (takeMessage_protected _ _ _ _ (by exact hl) ha)

/-! ### The runner (R158 to R160) -/

section runner
variable {s : State}

theorem opBusy_iff : opBusy s = true ↔ s.move ≠ none ∨ s.burn ≠ none := by
  simp [opBusy, Option.isSome_iff_ne_none]

/-- Every directive command is the runner's, by its code of 12.4 (log 5). -/
theorem exec_directive {i : Instr} {code : Byte} {ops : List Byte} (s : State) (h : directiveOf i = some (code, ops)) :
    exec i s = .next (takeDirective code ops s) := by
  cases i <;> cases h <;> rfl

theorem exec_runnerTakeRequest_blocked (n : Nat) (h : blocked s = true) : exec (.runnerTakeRequest n) s = .next s :=
  congrArg Host.Outcome.next (if_pos h)

theorem exec_runnerTakeRequest_held {r : Run} (n : Nat) (hb : blocked s = false) (hr : s.agent.run = some r) :
    exec (.runnerTakeRequest n) s = .next (runMany n s) := by
  show Host.Outcome.next (if blocked s then s else _) = _
  rw [if_neg (by simp [hb]), hr]

theorem exec_runnerTakeRequest_idle (n : Nat) (hb : blocked s = false) (hr : s.agent.run = none) :
    exec (.runnerTakeRequest n) s = .next (runMany n (takeOldest s)) := by
  show Host.Outcome.next (if blocked s then s else _) = _
  rw [if_neg (by simp [hb]), hr]

theorem runMany_stopped (n : Nat) (h : opBusy s = true ∨ timeWaits s = true) : runMany n s = s := by
  cases n with
  | zero => rfl
  | succ n => exact if_pos (by simpa using h)

theorem runMany_one (hbusy : opBusy s = false) (hw : timeWaits s = false) : runMany 1 s = settle (runOne s) :=
  if_neg (by simp [hbusy, hw])

theorem takeOldest_busy (h : opBusy s = true) : takeOldest s = s := by
  unfold takeOldest
  cases s.agent.queue with
  | nil => rfl
  | cons q rest => exact if_neg (by simp [mayTake, h])

theorem exec_runnerTakeRequest_busy (n : Nat) (h : opBusy s = true) : exec (.runnerTakeRequest n) s = .next s := by
  cases hb : blocked s with
  | true => exact exec_runnerTakeRequest_blocked n hb
  | false =>
    cases hr : s.agent.run with
    | none => rw [exec_runnerTakeRequest_idle n hb hr, takeOldest_busy h, runMany_stopped n (.inl h)]
    | some r => rw [exec_runnerTakeRequest_held n hb hr, runMany_stopped n (.inl h)]

/-- No reply is in hand (R158). -/
theorem replyInHand_false (h : ∀ hd final, s.agent.hand = some hd → hd.kind ≠ .reply final) : replyInHand s = false := by
  unfold replyInHand
  split
  · next final hhand => exact absurd rfl (h _ _ hhand)
  · rfl

theorem messageSize_append (rs : List Record) (r : Record) : messageSize (rs ++ [r]) = messageSize rs + (4 + r.data.length) := by
  simp [messageSize, Nat.add_assoc]

/-- The next directive is a TIME-READ whose reading an earlier record of the request reported (R92). -/
theorem timeWaits_held {r : Run} {d : Directive} {ds : List Directive} (hr : s.agent.run = some r) (hrest : r.rest = d :: ds) :
    timeWaits s = true ↔ d.code = 0x23 ∧ { code := 0x23, outcome := .done, data := beBytes 8 s.time.toNat } ∈ r.records := by
  rw [timeWaits_iff]
  constructor
  · rintro ⟨r', d', ds', hr', hrest', hcode, hmem⟩
    cases hr.symm.trans hr'
    cases hrest.symm.trans hrest'
    exact ⟨hcode, hmem⟩
  · exact fun ⟨hcode, hmem⟩ => ⟨r, d, ds, hr, hrest, hcode, hmem⟩

theorem taken_held {r : Run} {d : Directive} {ds : List Directive} (hr : s.agent.run = some r) (hrest : r.rest = d :: ds) :
    (s.updAgent fun a => { a with run := some { r with rest := ds } }) = taken s := by
  unfold taken State.updAgent
  simp only [hr, Option.map_some, hrest, List.drop_one, List.tail_cons]

theorem runOne_carried {r : Run} {d : Directive} {ds : List Directive} (hr : s.agent.run = some r) (hrest : r.rest = d :: ds)
    (hbudget : messageSize r.records + 4 + dataSize d + 4 * ds.length ≤ 9200) : runOne s = carryOut (decide (ds = [])) d (taken s) := by
  have hok : budgetOk r.records d ds.length = true := decide_eq_true hbudget
  have hlast : ds.isEmpty = decide (ds = []) := by cases ds <;> rfl
  unfold runOne
  simp only [hr, hrest, hok, if_true]
  rw [taken_held hr hrest, hlast]

/-- A failing budget test skips the directive and every one after it (R159). -/
theorem runOne_skipped {r : Run} {d : Directive} {ds : List Directive} (hr : s.agent.run = some r) (hrest : r.rest = d :: ds)
    (hbudget : 9200 < messageSize r.records + 4 + dataSize d + 4 * ds.length) :
    runOne s = finishRun { r with rest := [], records := r.records ++ (d :: ds).map skipped } (taken s) := by
  have hno : budgetOk r.records d ds.length = false := decide_eq_false (Nat.not_le.2 hbudget)
  unfold runOne
  simp only [hr, hrest, hno, Bool.false_eq_true, if_false]
  rw [taken_held hr hrest]
  unfold endDirective
  have hrun : (taken s).agent.run = some { r with rest := ds } := by rw [← taken_held hr hrest]; rfl
  rw [hrun]
  rfl

theorem ended_outside (code : Byte) (o : DirOutcome) (data : List Byte) (h : s.agent.run = none) :
    ended code o data s = settle { s with lastRecord := some { code, outcome := o, data } } := by
  unfold ended endDirective
  rw [h]

theorem ended_goes_on {code : Byte} (data : List Byte) {r : Run} (h : s.agent.run = some r) (hrest : r.rest ≠ []) :
    ended code .done data s =
      settle (s.updAgent fun a => { a with run := some { r with records := r.records ++ [{ code, outcome := .done, data }] } }) := by
  unfold ended endDirective
  rw [h]
  refine congrArg settle ?_
  simp only [recordIn, if_true]
  unfold keepRun
  split
  · next hnil => exact absurd hnil hrest
  · rfl

theorem ended_last {code : Byte} {o : DirOutcome} (data : List Byte) {r : Run} (h : s.agent.run = some r) (hlast : o ≠ .done ∨ r.rest = []) :
    ended code o data s =
      settle (finishRun { r with rest := [], records := r.records ++ ⟨code, o, data⟩ :: r.rest.map skipped } s) := by
  unfold ended endDirective
  rw [h]
  refine congrArg settle ?_
  by_cases ho : o = .done
  · have hrest := hlast.resolve_left (fun h => h ho)
    simp only [recordIn, ho, if_true, keepRun, hrest]
    rfl
  · simp only [recordIn, ho, if_false, keepRun]

end runner

/-- Settles O35: a request is taken, waits for the counter, fails the budget test, is carried on, ends. -/
theorem runnerRuns : Obligations.RunnerRuns := by
  refine ⟨⟨fun s => opBusy_iff, fun i code ops s h => exec_directive s h, fun s h => ⟨fun n => ?_, fun i d hd => ?_⟩, rfl, messageSize_append,
      replyMessage_length⟩,
    fun s n h => exec_runnerTakeRequest_blocked n h, fun s q rest hb hbusy hq hr hreply hhand hre => ?_,
    fun s r d ds hb hbusy hr hrest => ⟨timeWaits s = true, timeWaits_held hr hrest, fun hw => ⟨fun n => ?_, fun ops => ?_⟩, fun hw hbudget => ?_,
      fun hw hbudget => ⟨fun o data t hp => ?_, fun t hp => ?_⟩⟩,
    fun s r ops hre => ⟨?_, fun code => takeDirective_restarting hre⟩, fun code o data t h => ended_outside code o data h,
    fun code o data t r h => ⟨fun ho hrest => ?_, fun hlast => ended_last data h hlast⟩⟩
  · exact h.elim (exec_runnerTakeRequest_busy n) (exec_runnerTakeRequest_blocked n)
  · rw [exec_directive s (code := d.1) (ops := d.2) hd, takeDirective_busy h]
  · have hmay : mayTake s = true := by simp [mayTake, hr, hreply, replyInHand_false hhand, hre, hbusy]
    rw [exec_runnerTakeRequest_idle 0 hb hr, takeOldest, hq]
    exact congrArg Host.Outcome.next (if_pos hmay)
  · rw [exec_runnerTakeRequest_held n hb hr, runMany_stopped n (.inr hw)]
  · rw [exec_directive s (rfl : directiveOf (.timeRead ops) = _), takeDirective_waits hw]
  · rw [exec_runnerTakeRequest_held 1 hb hr, runMany_one hbusy (Bool.eq_false_iff.2 hw), runOne_skipped hr hrest hbudget]
    rfl
  · rw [exec_runnerTakeRequest_held 1 hb hr, runMany_one hbusy (Bool.eq_false_iff.2 hw), runOne_carried hr hrest hbudget, carryOut, hp]
    rfl
  · rw [exec_runnerTakeRequest_held 1 hb hr, runMany_one hbusy (Bool.eq_false_iff.2 hw), runOne_carried hr hrest hbudget, carryOut, hp]
  · rw [exec_directive s (rfl : directiveOf (.restart ops) = _), takeDirective_restarting hre]
  · subst ho
    exact ended_goes_on data h hrest

end Sys2Proof.Agents
end

section
/-! The statements on start-up, the pins and the directives of the agent (R16, R36, R37, R166, R169 to R171, R175, R176). -/

namespace Sys2Proof.Startup
open Sys2Proof.Machine Sys2Proof.Safety

/-! ### Cold reset (R169) -/

theorem reset_isCold : IsCold State.reset.pins State.reset State.reset := coldReset_isCold State.reset.pins State.reset rfl

theorem exec_powerOn (pins : Pins) (s : State) : exec (.powerOn pins) s = .next (coldReset { s with pins }) := rfl

theorem exec_resetNAssert {s : State} (h : s.pins.resetHigh = true) :
    exec .resetNAssert s = .next (coldReset { s with pins := { s.pins with resetHigh := false } }) :=
  congrArg Host.Outcome.next (if_pos h)

theorem exec_restartTimeout {s : State} {r : Timer} (hr : s.agent.restart = some r) (h : r.len ≤ (s.time - r.start).toNat) :
    exec .restartTimeout s = .next (coldReset s) :=
  congrArg Host.Outcome.next (if_pos (by rw [hr]; exact timerDue_of_le h))

theorem coldBank_get (i : Fin 256) :
    coldBank[i] = { valid := false, direction := .both, ports := 0xF, vlan := .any, etype := none, action := .discard } := by
  simp [coldBank, Entry.cleared]

theorem reset_chan (c : Chan) : State.reset.chan c = Channel.cold (decide (c.val < 2)) := coldChannels_get c

/-- Settles O2: the causes of a cold reset, the value of each block, and the channel table. -/
theorem coldReset : Obligations.ColdReset := by
  refine ⟨⟨fun pins s => ⟨_, exec_powerOn pins s, coldReset_isCold pins { s with pins } rfl⟩,
      fun s h => ⟨_, exec_resetNAssert h, coldReset_isCold _ { s with pins := { s.pins with resetHigh := false } } rfl⟩,
      fun s r hr h => ⟨_, exec_restartTimeout hr h, coldReset_isCold _ s rfl⟩⟩,
    ⟨reset_isCold, coldBank_get, rfl, fun los => rfl, rfl, rfl⟩, fun c => ?_⟩
  rw [reset_chan]
  refine ⟨rfl, rfl, rfl, fun i => ?_, fun x => ?_⟩
  · simp [Channel.cold]
  · cases x <;> exact ⟨⟨rfl, rfl, rfl, rfl, rfl, rfl, rfl, rfl⟩, rfl, rfl, ⟨rfl, rfl, rfl, rfl, rfl, rfl, rfl, rfl, rfl⟩, rfl, rfl⟩

/-- Settles O60: the state after reset is one that a cold reset leaves. -/
theorem invariantsAtReset : Obligations.InvariantsAtReset := by
  obtain ⟨hroll, hslots, hcap, horder, -⟩ := Kept.conditions_of_isCold reset_isCold
  refine ⟨hroll, hslots, hcap, horder, fun w => ?_⟩
  fin_cases w <;> rfl

/-! ### The self-check (R16, R169 to R171) -/

theorem exec_resetNRelease {s : State} (hlow : s.pins.resetHigh = false) (hpart : s.part = .testing none) :
    exec .resetNRelease s = .next { s with
      pins := { s.pins with resetHigh := true }
      part := .testing (some (s.pins.selftestLong || s.store[4].getLsbD 3)) } := by
  show Host.Outcome.next (if s.pins.resetHigh then s else releaseReset s) = _
  rw [if_neg (by simp [hlow])]
  unfold releaseReset
  simp only [hpart]
  rfl

theorem exec_selfCheck_failed {cipherOk tablesOk windowsOk long : Bool} {s : State} {code : Nat} (hpart : s.part = .testing (some long))
    (hcode : selfCheckCode cipherOk tablesOk windowsOk s = some code) :
    exec (.selfCheckCompletion cipherOk tablesOk windowsOk) s = .next { s with part := .failed code } := by
  show Host.Outcome.next (endSelfCheck cipherOk tablesOk windowsOk s) = _
  simp only [endSelfCheck, hpart, hcode]

theorem exec_selfCheck_passed {cipherOk tablesOk windowsOk long : Bool} {s : State} (hpart : s.part = .testing (some long))
    (hcode : selfCheckCode cipherOk tablesOk windowsOk s = none) :
    exec (.selfCheckCompletion cipherOk tablesOk windowsOk) s = .next (settle (selfCheckPass s)) := by
  show Host.Outcome.next (endSelfCheck cipherOk tablesOk windowsOk s) = _
  simp only [endSelfCheck, hpart, hcode]

/-- The first failing test of the self-check (R170). -/
theorem selfCheckCode_failed {cipherOk tablesOk windowsOk : Bool} {s : State} {code : Nat}
    (h : cipherOk = false ∧ code = 2 ∨ cipherOk = true ∧ tablesOk = false ∧ code = 3 ∨
      cipherOk = true ∧ tablesOk = true ∧ windowsOk = false ∧ code = 4 ∨
      cipherOk = true ∧ tablesOk = true ∧ windowsOk = true ∧ s.store[4].getLsbD 0 = true ∧
        (s.store.toList.foldl (fun a w => a + w.toNat) 0) % 65536 ≠ 0 ∧ code = 5) :
    selfCheckCode cipherOk tablesOk windowsOk s = some code := by
  unfold selfCheckCode
  rw [knownAnswerTest_eq]
  rcases h with ⟨rfl, rfl⟩ | ⟨rfl, rfl, rfl⟩ | ⟨rfl, rfl, rfl, rfl⟩ | ⟨rfl, rfl, rfl, hlock, hsum, rfl⟩
  · rfl
  · rfl
  · rfl
  · have hbad : (lockBit s && !storeSumsToZero s.store) = true := by
      simp only [Bool.and_eq_true, Bool.not_eq_true']
      exact ⟨hlock, beq_eq_false_iff_ne.2 hsum⟩
    simp [hbad]

/-- The store's check word is tested on a locked part alone (R170). -/
theorem selfCheckCode_passed {s : State}
    (h : s.store[4].getLsbD 0 = true → (s.store.toList.foldl (fun a w => a + w.toNat) 0) % 65536 = 0) :
    selfCheckCode true true true s = none := by
  have hgood : (lockBit s && !storeSumsToZero s.store) = false := by
    cases hlock : lockBit s with
    | false => rfl
    | true =>
      have hzero : storeSumsToZero s.store = true := beq_iff_eq.2 (h hlock)
      rw [hzero]; rfl
  unfold selfCheckCode
  rw [knownAnswerTest_eq]
  simp [hgood]

/-! #### Channel 0 loaded where the part is locked and ZEROIZE_N is high (R171, R175) -/

section load
variable {s : State}

theorem loadIfLocked_locked (hlock : lockBit s = true) (hpin : s.pins.zeroizeHigh = true) : loadIfLocked s = loadChannel0 s :=
  if_pos (by simp [hlock, hpin])

theorem loadIfLocked_unlocked (h : lockBit s = false ∨ s.pins.zeroizeHigh = false) : loadIfLocked s = s :=
  if_neg (by rcases h with h | h <;> simp [h])

theorem loadIfLocked_chan_ne {c : Chan} (hc : c ≠ 0) : (loadIfLocked s).chan c = s.chan c := by
  unfold loadIfLocked
  split
  · exact loadChannel0_chan_ne s c hc
  · rfl

/-- The load touches the channel table alone. -/
theorem loadIfLocked_frame : loadIfLocked s = { s with channels := (loadIfLocked s).channels } := by
  unfold loadIfLocked
  split <;> rfl

theorem loadIfLocked_chan_zero (hlock : lockBit s = true) (hpin : s.pins.zeroizeHigh = true) : Loaded0 s (s.chan 0) ((loadIfLocked s).chan 0) := by
  rw [loadIfLocked_locked hlock hpin]
  exact loadChannel0_chan_zero s

end load

theorem storeAddr_toNat (s : State) : (storeAddr s).toNat =
    0x02 * 2 ^ 40 + (s.store[1].toNat % 256) * 2 ^ 32 + s.store[2].toNat * 2 ^ 16 + s.store[3].toNat := by
  have h2 : s.store[2].toNat < 65536 := s.store[2].isLt
  have h3 : s.store[3].toNat < 65536 := s.store[3].isLt
  have h1 : s.store[1].toNat % 256 < 256 := Nat.mod_lt _ (by decide)
  show (BitVec.ofNat 48 _).toNat = _
  rw [BitVec.toNat_ofNat]
  exact Nat.mod_eq_of_lt (by omega)

/-- The state that a passing self-check opens the part with, before channel 0 is loaded. -/
def openedPart (s : State) : State :=
  let s1 := latchIdentity { s with part := if lockBit s then .running else .unprovisioned }
  { s1 with lanes := mapVec (startLane s1) s1.lanes }

theorem selfCheckPass_eq (s : State) : selfCheckPass s = loadIfLocked (openedPart s) := rfl

theorem openedPart_lane (s : State) (k : LaneId) : (openedPart s).lane k =
    { s.lane k with
      beaconTimer := some { start := s.time, len := 100 * s.prot.interval }
      rateTimer := if (s.lane k).genOn then some { start := s.time, len := 1000000 / (s.lane k).rate } else (s.lane k).rateTimer } :=
  mapVec_get _ s.lanes k

theorem loadIfLocked_lane (s : State) (k : LaneId) : (loadIfLocked s).lane k = s.lane k := by
  rw [loadIfLocked_frame]; rfl

theorem statusTable (s : State) :
    (∀ check, s.part = .testing check → statusCode s = 0 ∧ faultN s = true ∧ blocked s = true) ∧
    (s.part = .running → statusCode s = (if s.pins.zeroizeHigh then 1 else 6) ∧ faultN s = true ∧ blocked s = false) ∧
    (∀ code, s.part = .failed code → statusCode s = code ∧ faultN s = false ∧ blocked s = true) ∧
    (s.part = .unprovisioned → statusCode s = (if s.pins.zeroizeHigh then 7 else 6) ∧ faultN s = true ∧ blocked s = false) := by
  refine ⟨fun check h => ?_, fun h => ?_, fun code h => ?_, fun h => ?_⟩ <;> simp [statusCode, faultN, blocked, h]

/-- The known-answer test's fixed values (R16). -/
theorem knownAnswers : protectText katKey katNonce [] katText = katSealed ∧ verifyText katKey katNonce [] katSealed.1 katSealed.2 = some katText ∧
    verifyText katKey katNonce [] katSealed.1 (invertTag katSealed.2) = none ∧ kcvOf katKey = 0xDC95C0 := by
  decide +kernel

/-- Settles O3: the states of the part, the start of the self-check, its tests, and what a passing one leaves. -/
theorem selfCheck : Obligations.SelfCheck := by
  obtain ⟨hprotect, hverify, hinverted, hkcv⟩ := knownAnswers
  refine ⟨statusTable, fun s => exec_resetNRelease, ⟨hprotect, hverify, hinverted, hkcv, knownAnswerTest_eq⟩,
    fun cipherOk tablesOk windowsOk long s code hpart hfail =>
      ⟨_, exec_selfCheck_failed hpart (selfCheckCode_failed hfail), rfl, rfl, rfl, rfl⟩,
    fun long s hpart hsum => ⟨_, exec_selfCheck_passed hpart (selfCheckCode_passed hsum), ?_⟩⟩
  rw [selfCheckPass_eq]
  have hframe : loadIfLocked (openedPart s) = { openedPart s with channels := (loadIfLocked (openedPart s)).channels } := loadIfLocked_frame
  refine ⟨?_, ?_, ?_, fun k => ⟨?_, fun hgen => ?_, fun hgen => ?_, ?_⟩, fun c hc => loadIfLocked_chan_ne hc, fun ⟨hlock, hpin⟩ => ?_, fun h => ?_, ?_⟩
  · rw [hframe]; rfl
  · rw [hframe]; rfl
  · rw [hframe]; exact storeAddr_toNat s
  · rw [loadIfLocked_lane, openedPart_lane]
  · rw [loadIfLocked_lane, openedPart_lane, hgen]; rfl
  · rw [loadIfLocked_lane, openedPart_lane, hgen]; rfl
  · rw [loadIfLocked_lane, openedPart_lane]
  · exact loadIfLocked_chan_zero (s := openedPart s) hlock hpin
  · rw [loadIfLocked_unlocked (s := openedPart s) h]; rfl
  · rw [hframe]; rfl

/-! ### ZEROIZE_N (R37, R175) -/

/-- Zeroize of the table leaves each channel with every slot EMPTY and no schedule (R37). -/
theorem zeroized_zeroizeTable (s : State) (c : Chan) : Zeroized (s.chan c) ((zeroizeTable s).chan c) := by
  rw [Kept.zeroizeTable_chan]
  refine ⟨rfl, rfl, rfl, rfl, fun x => ?_⟩
  cases x <;> exact ⟨Kept.outCleared_emptyOut _, rfl, rfl, Kept.inCleared_emptyIn _, rfl, rfl⟩

theorem exec_zeroizeNAssert {s : State} (h : s.pins.zeroizeHigh = true) :
    exec .zeroizeNAssert s = .next (zeroizeTable { s with pins := { s.pins with zeroizeHigh := false } }) :=
  congrArg Host.Outcome.next (if_pos h)

/-- Channel 0 is loaded when ZEROIZE_N goes high on a locked part that is not BLOCKED, and nothing happens to the table otherwise (R175). -/
theorem exec_zeroizeNRelease {s : State} (h : s.pins.zeroizeHigh = false) :
    exec .zeroizeNRelease s = .next (settle (if blocked s then { s with pins := { s.pins with zeroizeHigh := true } }
      else loadIfLocked { s with pins := { s.pins with zeroizeHigh := true } })) :=
  congrArg Host.Outcome.next (if_neg (by simp [h]))

/-- Settles O4: the pin going low empties the table, and going high loads channel 0. -/
theorem zeroizePin : Obligations.ZeroizePin := by
  refine ⟨fun s h => ⟨_, exec_zeroizeNAssert h, zeroized_zeroizeTable _, rfl, rfl⟩,
    fun s h => ⟨_, exec_zeroizeNRelease h, fun ⟨hb, hlock⟩ => ?_, fun hno => ?_, fun c hc => ?_, ?_⟩⟩
  · rw [if_neg (by simp [hb])]
    exact loadIfLocked_chan_zero (s := { s with pins := { s.pins with zeroizeHigh := true } }) hlock rfl
  · split
    · rfl
    · next hb =>
      rw [loadIfLocked_unlocked (s := { s with pins := { s.pins with zeroizeHigh := true } }) (.inl (hno.resolve_left hb))]; rfl
  · split
    · rfl
    · rw [loadIfLocked_chan_ne hc]; rfl
  · split
    · rfl
    · exact loadIfLocked_frame

/-! ### NOTICE-MASK, ZEROIZE and RESTART (R166, R169, R176) -/

section agent
variable {s : State} {ops : List Byte}

theorem exec_noticeMask : exec (.noticeMask ops) s = .next (takeDirective codeNoticeMask ops s) := rfl
theorem exec_zeroize : exec (.zeroize ops) s = .next (takeDirective codeZeroize ops s) := rfl
theorem exec_restart : exec (.restart ops) s = .next (takeDirective codeRestart ops s) := rfl

theorem perform_noticeMask (last : Bool) (t : State) : perform last ⟨codeNoticeMask, ops⟩ t = dirNoticeMask ops t := rfl
theorem perform_zeroize (last : Bool) (t : State) : perform last ⟨codeZeroize, ops⟩ t = dirZeroize ops t := rfl
theorem perform_restart (last : Bool) (t : State) : perform last ⟨codeRestart, ops⟩ t = dirRestart last ops t := rfl

/-- A directive is the last of its request exactly where its flag says so (R169). -/
theorem isLast_iff (h : Ready codeRestart ops s) : isLast s ↔ lastFlag s = true := by
  obtain ⟨-, -, -, -, hrun | ⟨r, rest, hrun, hrest, -⟩⟩ := h
  · simp [isLast, lastFlag, hrun]
  · simp [isLast, lastFlag, hrun, hrest]

end agent

/-- Settles O50: each directive by its refusals and its effect. -/
theorem agentDirectives : Obligations.AgentDirectives := by
  refine ⟨fun ops s hready => ⟨fun h => ?_, fun hlen h => ?_, fun m hlen hm => ?_⟩, fun ops s hready => ⟨fun h => ?_, fun h => ?_⟩,
    fun ops s hready => ⟨fun h => ?_, fun hops hlast => ?_⟩⟩
  · rw [exec_noticeMask, takeDirective_ended hready ((perform_noticeMask _ _).trans (if_pos h))]
  · rw [exec_noticeMask, takeDirective_ended hready ((perform_noticeMask _ _).trans ((if_neg (not_not.2 hlen)).trans (if_pos h)))]
  · have hrange : ¬ 4096 ≤ numAt ops 0 2 := by have := m.isLt; omega
    have hset : BitVec.ofNat 12 (numAt ops 0 2) = m := by rw [← hm, BitVec.ofNat_toNat]; exact BitVec.setWidth_eq m
    rw [exec_noticeMask, takeDirective_ended hready ((perform_noticeMask _ _).trans ((if_neg (not_not.2 hlen)).trans (if_neg hrange))), hset, hm]
  · rw [exec_zeroize, takeDirective_ended hready ((perform_zeroize _ _).trans (if_pos (by simpa using h)))]
  · subst h
    have hzero : ∀ c, Zeroized (s.chan c) ((zeroizeTable (taken s)).chan c) := zeroized_zeroizeTable (taken s)
    refine ⟨_, by rw [exec_zeroize, takeDirective_ended hready ((perform_zeroize _ _).trans (if_neg (by simp)))], ?_, fun c hc => ?_, fun hno => ?_,
      fun hlock hpin => ⟨_, hzero 0, ?_⟩, ?_⟩
    · rw [loadIfLocked_frame]; rfl
    · rw [loadIfLocked_chan_ne hc]; exact hzero c
    · rw [loadIfLocked_unlocked (s := zeroizeTable (taken s)) hno]; exact hzero 0
    · exact loadIfLocked_chan_zero (s := zeroizeTable (taken s)) hlock hpin
    · have hstaging : (loadIfLocked (zeroizeTable (taken s))).staging = (zeroizeTable (taken s)).staging := by rw [loadIfLocked_frame]
      rw [hstaging]
      exact loadIfLocked_frame
  · have hflag : ops.length ≠ 0 ∨ lastFlag s = false :=
      h.imp (by simp) fun hlast => Bool.eq_false_iff.2 fun hflag => hlast ((isLast_iff hready).2 hflag)
    rw [exec_restart, takeDirective_ended hready ((perform_restart _ _).trans (if_pos hflag))]
  · subst hops
    have hflag := (isLast_iff hready).1 hlast
    rw [exec_restart, takeDirective_ended hready ((perform_restart _ _).trans (if_neg (by simp [hflag])))]
    rfl

end Sys2Proof.Startup
end

section
/-! The arbiter, the loss of a lane, the LOS pins and the continuity timer (R91, R127, R128, R131 to R137, R140, R148). -/

namespace Sys2Proof.Switching
open Sys2Proof.Machine Sys2Proof.Safety

/-! ### The arbiter's choice (R132, R133) -/

/-- The order of the request classes (R133). -/
def rankOf : ReqClass → Nat
  | .none => 0
  | .wait => 1
  | .manual => 2
  | .fail => 3
  | .force => 4

theorem rankOf_inj {c d : ReqClass} (h : rankOf c = rankOf d) : c = d := by cases c <;> cases d <;> simp_all [rankOf]

section choice
variable {cls : Vector ReqClass 4} {c : ReqClass}

theorem below_one : ∀ m : PortId, m < 1 → m = 0 := by decide
theorem below_two : ∀ m : PortId, m < 2 → m = 0 ∨ m = 1 := by decide
theorem below_three : ∀ m : PortId, m < 3 → m = 0 ∨ m = 1 ∨ m = 2 := by decide

theorem lowestOf_some {n : PortId} (h : lowestOf cls c = some n) : cls[n] = c ∧ ∀ m : PortId, m < n → cls[m] ≠ c := by
  unfold lowestOf at h
  split at h
  · next h0 => cases h; exact ⟨h0, fun m hm => absurd hm (Fin.not_lt_zero m)⟩
  · next h0 =>
    split at h
    · next h1 =>
      cases h
      refine ⟨h1, fun m hm => ?_⟩
      obtain rfl := below_one m hm
      exact h0
    · next h1 =>
      split at h
      · next h2 =>
        cases h
        refine ⟨h2, fun m hm => ?_⟩
        obtain rfl | rfl := below_two m hm
        · exact h0
        · exact h1
      · next h2 =>
        split at h
        · next h3 =>
          cases h
          refine ⟨h3, fun m hm => ?_⟩
          obtain rfl | rfl | rfl := below_three m hm
          · exact h0
          · exact h1
          · exact h2
        · cases h

theorem lowestOf_none (h : lowestOf cls c = none) (n : PortId) : cls[n] ≠ c := by
  unfold lowestOf at h
  split at h
  · cases h
  · split at h
    · cases h
    · split at h
      · cases h
      · split at h
        · cases h
        · fin_cases n <;> assumption

theorem lowestOf_isSome_iff : (lowestOf cls c).isSome = true ↔ ∃ n : PortId, cls[n] = c := by
  constructor
  · intro h
    obtain ⟨n, hn⟩ := Option.isSome_iff_exists.1 h
    exact ⟨n, (lowestOf_some hn).1⟩
  · rintro ⟨n, hn⟩
    cases h : lowestOf cls c with
    | none => exact absurd hn (lowestOf_none h n)
    | some m => rfl

/-- The highest class is present, if any is, and no class present is above it. -/
theorem highestClass_spec (cls : Vector ReqClass 4) :
    (∀ m : PortId, rankOf cls[m] ≤ rankOf (highestClass cls)) ∧ ((∃ n : PortId, cls[n] ≠ .none) → ∃ n : PortId, cls[n] = highestClass cls) := by
  have habsent : ∀ c, ¬ (lowestOf cls c).isSome = true → ∀ m : PortId, cls[m] ≠ c := fun c h m hm => h (lowestOf_isSome_iff.2 ⟨m, hm⟩)
  unfold highestClass
  split
  · next h => exact ⟨fun m => by cases cls[m] <;> simp [rankOf], fun _ => lowestOf_isSome_iff.1 h⟩
  · next hforce =>
    split
    · next h =>
      refine ⟨fun m => ?_, fun _ => lowestOf_isSome_iff.1 h⟩
      have := habsent _ hforce m
      cases hc : cls[m] <;> simp_all [rankOf]
    · next hfail =>
      split
      · next h =>
        refine ⟨fun m => ?_, fun _ => lowestOf_isSome_iff.1 h⟩
        have := habsent _ hforce m
        have := habsent _ hfail m
        cases hc : cls[m] <;> simp_all [rankOf]
      · next hmanual =>
        have hlow : ∀ m : PortId, cls[m] = .none ∨ cls[m] = .wait := fun m => by
          have := habsent _ hforce m
          have := habsent _ hfail m
          have := habsent _ hmanual m
          cases hc : cls[m] <;> simp_all
        split
        · next h => exact ⟨fun m => by rcases hlow m with e | e <;> rw [e] <;> decide, fun _ => lowestOf_isSome_iff.1 h⟩
        · next hwait =>
          have hnone : ∀ m : PortId, cls[m] = .none := fun m => (hlow m).resolve_right (habsent _ hwait m)
          exact ⟨fun m => by rw [hnone m], fun ⟨n, hn⟩ => absurd (hnone n) hn⟩

theorem highestClass_ne_none {n : PortId} (h : cls[n] ≠ .none) : highestClass cls ≠ .none := fun e => by
  have := (highestClass_spec cls).1 n
  rw [e] at this
  exact h (rankOf_inj (by simpa [rankOf] using this))

/-- Where the standby lane is available and a lane requests it, a lane of the highest class is chosen (R133). -/
theorem arbiter_chooses {sel : Option PortId} (h : ∃ n : PortId, cls[n] ≠ .none) : ∃ n : PortId, arbiter true cls sel = some n ∧
    (∀ m : PortId, rankOf cls[m] ≤ rankOf cls[n]) ∧
    (sel ≠ some n → (∀ m : PortId, sel = some m → rankOf cls[m] < rankOf cls[n]) ∧ ∀ m : PortId, m < n → rankOf cls[m] < rankOf cls[n]) := by
  obtain ⟨htop, hpresent⟩ := highestClass_spec cls
  obtain ⟨p, hp⟩ := hpresent h
  obtain ⟨q, hq⟩ := h
  have hbelow : ∀ m : PortId, cls[m] ≠ highestClass cls → rankOf cls[m] < rankOf (highestClass cls) := fun m hm =>
    lt_of_le_of_ne (htop m) fun e => hm (rankOf_inj e)
  obtain ⟨n, hn⟩ := Option.isSome_iff_exists.1 (lowestOf_isSome_iff.2 ⟨p, hp⟩)
  obtain ⟨hclass, hlowest⟩ := lowestOf_some hn
  have hmay : arbiter true cls sel = match sel with
      | some n => if cls[n] = highestClass cls then some n else lowestOf cls (highestClass cls)
      | none => lowestOf cls (highestClass cls) := if_neg (highestClass_ne_none hq)
  by_cases hsel : ∃ m, sel = some m ∧ cls[m] = highestClass cls
  · obtain ⟨m, rfl, hm⟩ := hsel
    exact ⟨m, hmay.trans (if_pos hm), fun j => hm ▸ htop j, fun hne => absurd rfl hne⟩
  · refine ⟨n, ?_, fun m => hclass ▸ htop m, fun _ => ⟨fun m hm => ?_, fun m hm => ?_⟩⟩
    · rw [hmay]
      cases sel with
      | none => exact hn
      | some m => exact (if_neg fun e => hsel ⟨m, rfl, e⟩).trans hn
    · rw [hclass]
      exact hbelow m fun e => hsel ⟨m, hm, e⟩
    · rw [hclass]
      exact hbelow m (hlowest m hm)

end choice

/-! ### What a run of the arbiter does (R131 to R135) -/

/-- The classes judged afresh, lane by lane. -/
def judgedClasses (s : State) : Vector ReqClass 4 := #v[judgeClass s 0, judgeClass s 1, judgeClass s 2, judgeClass s 3]

theorem judgedClasses_get (s : State) (n : PortId) : (judgedClasses s)[n] = judgeClass s n := by fin_cases n <;> rfl

/-- The choice of the arbiter on the classes judged afresh. -/
def chosen (s : State) : Option PortId := arbiter (standbyAvailable s) (judgedClasses s) s.prot.selection

/-- The classes after the selection went elsewhere: the lane that leaves it is no longer in WAIT (R134). -/
def leftClasses (s : State) : Vector ReqClass 4 :=
  match s.prot.selection with
  | some n => if (judgedClasses s)[n] = .wait then (judgedClasses s).set n .none else judgedClasses s
  | none => judgedClasses s

section run
variable {s : State}

theorem runArbiter_campus (h : s.role = .campus) : runArbiter s = s := by unfold runArbiter; rw [h]

theorem runArbiter_kept (h : s.role = .rack) (hsel : chosen s = s.prot.selection) :
    runArbiter s = s.updProt fun p => { p with classes := judgedClasses s, wtrTimer := judgeWtr s (judgedClasses s) } := by
  unfold runArbiter
  rw [h]
  exact if_pos hsel

theorem runArbiter_moves (h : s.role = .rack) (hsel : chosen s ≠ s.prot.selection) : runArbiter s = moveBridging s.prot.selection (chosen s)
    (s.updProt fun p => { p with classes := leftClasses s, wtrTimer := none, selection := chosen s }) := by
  unfold runArbiter
  rw [h]
  exact if_neg hsel

theorem standbyAvailable_iff : standbyAvailable s = true ↔
    (s.lane 4).state = .up ∧ s.prot.farFail.getLsbD 4 = false ∧ (s.lane 4).loopMode = .none ∧ s.prot.lockout = false := by
  simp [standbyAvailable, standby, and_assoc]

theorem workingFailed_iff (n : PortId) : workingFailed s n = true ↔
    (s.lane (laneOfPort n)).state = .los ∨ (s.lane (laneOfPort n)).state = .dark ∨ s.prot.farFail.getLsbD n.val = true := by
  simp [workingFailed, laneFailed, or_assoc]

theorem judgeClass_judged (n : PortId) : ClassJudged s n (judgeClass s n) := by
  refine ⟨workingFailed s n = true, workingFailed_iff n, fun hf => if_pos hf, fun hf hfail => ?_, fun hf hfail hm => ?_, fun hf hfail hm hsel => ?_,
    fun hf hfail hm hsel => ⟨fun hc => ?_, fun hc => ?_, fun hc hw => ?_⟩⟩
  all_goals unfold judgeClass; rw [if_neg hf]
  · rw [if_pos hfail]
  · rw [if_neg hfail, if_pos hm]
  · rw [if_neg hfail, if_neg hm, if_neg hsel]
  · rw [if_neg hfail, if_neg hm, if_pos hsel, hc]
  · rw [if_neg hfail, if_neg hm, if_pos hsel, hc]
  · rw [if_neg hfail, if_neg hm, if_pos hsel]
    split <;> simp_all

theorem leftClasses_get (n : PortId) :
    (leftClasses s)[n] = if s.prot.selection = some n ∧ (judgedClasses s)[n] = .wait then .none else (judgedClasses s)[n] := by
  unfold leftClasses
  cases hsel : s.prot.selection with
  | none => simp
  | some m =>
    dsimp only
    by_cases hw : (judgedClasses s)[m] = .wait
    · rw [if_pos hw]
      by_cases hmn : m = n
      · subst hmn
        rw [if_pos ⟨rfl, hw⟩]
        exact Vector.getElem_set_self _
      · rw [if_neg fun h => hmn (Option.some.inj h.1)]
        exact Vector.getElem_set_ne _ _ fun e => hmn (Fin.ext e)
    · rw [if_neg hw, if_neg]
      rintro ⟨e, hn⟩
      cases e
      exact hw hn

theorem onlyLanesCut_refl (s : State) : OnlyLanesCut s s := fun _ => ⟨rfl, fun _ _ => rfl⟩

theorem bridgingMoved_refl (a : Option PortId) (s : State) : BridgingMoved a a s s := ⟨fun _ _ => ⟨rfl, rfl⟩, fun h => absurd rfl h⟩

/-- A run of the arbiter of a RACK part does what R131 to R135 state. -/
theorem arbiterRan (h : s.role = .rack) : ArbiterRan s (runArbiter s) := by
  refine ⟨standbyAvailable s, judgedClasses s, standbyAvailable_iff, fun n => judgedClasses_get s n ▸ judgeClass_judged n, ?_⟩
  by_cases hsel : chosen s = s.prot.selection
  · rw [runArbiter_kept h hsel]
    refine ⟨hsel.symm, fun n => ?_, fun n hn _ hw => ?_, fun hno => ?_, bridgingMoved_refl _ s, ?_, onlyLanesCut_refl s, rfl, rfl⟩
    · exact (if_neg fun ⟨hne, _⟩ => hne rfl).symm
    · show judgeWtr s (judgedClasses s) = _
      simp only [judgeWtr, hn, hw, if_true, startTimer, Nat.mul_comm]
    · show judgeWtr s (judgedClasses s) = none
      unfold judgeWtr
      cases hn : s.prot.selection with
      | none => rfl
      | some n => exact if_neg (hno n hn hn)
    · exact (if_pos rfl).symm
  · rw [runArbiter_moves h hsel]
    generalize hu : s.updProt _ = u
    obtain ⟨hframe, hcut⟩ := moveBridging_frame s.prot.selection (chosen s) u
    have hprot : (moveBridging s.prot.selection (chosen s) u).prot = u.prot := by rw [hframe]
    have hnew : u.prot.selection = chosen s := by rw [← hu]; rfl
    have hmoved := moveBridging_moved (Ne.symm hsel) u
    refine ⟨hprot ▸ hnew, fun n => ?_, fun n hn hn' => ?_, fun _ => ?_, ?_, ?_, ?_, ?_, ?_⟩
    · have hcls : u.prot.classes = leftClasses s := by rw [← hu]; rfl
      rw [hprot, hnew, hcls, leftClasses_get]
      simp [hsel]
    · rw [hprot, hnew] at hn'
      exact absurd (hn'.trans hn.symm) hsel
    · rw [hprot, ← hu]; rfl
    · rw [hprot, hnew]
      subst hu
      exact hmoved
    · rw [hprot, hnew, if_neg hsel, hframe, ← hu]; rfl
    · subst hu
      exact hcut
    · rw [hprot, ← hu]; rfl
    · rw [hframe, ← hu]; rfl

/-- In the RACK role the arbiter runs, in the CAMPUS role it does not. -/
theorem arbiterJudged (s : State) : ArbiterJudged s (runArbiter s) := ⟨arbiterRan, runArbiter_campus⟩

end run

/-- Settles O33: the arbiter's choice by rank, and a run of it. -/
theorem arbiterRuns : Obligations.ArbiterRuns := by
  refine ⟨fun available classes sel rank hnone hwait hmanual hfail hforce => ?_, fun s => arbiterRan, fun s => runArbiter_campus⟩
  obtain rfl : rank = rankOf := by
    funext c
    cases c <;> simp [rankOf, hnone, hwait, hmanual, hfail, hforce]
  refine ⟨fun h => ?_, fun havail hreq => by rw [havail]; exact arbiter_chooses hreq⟩
  rcases h with rfl | h
  · rfl
  · have hidle : highestClass classes = .none := by
      have habsent : ∀ c, c ≠ .none → ¬ (lowestOf classes c).isSome = true := fun c hc e => by
        obtain ⟨n, hn⟩ := lowestOf_isSome_iff.1 e
        exact hc (hn.symm.trans (h n))
      simp [highestClass, habsent]
    cases available
    · rfl
    · exact if_pos hidle

/-! ### Service kept on the way (R135) -/

section bridging
variable {a b : Option PortId} {s t u : State}

theorem bridgingMoved_after (hk : ∀ k, ServiceKept (s.lane k) (u.lane k)) (h : BridgingMoved a b u t) : BridgingMoved a b s t := by
  obtain ⟨hsame, hmoved⟩ := h
  have hkept : ∀ k {m : Lane}, ServiceKept (u.lane k) m → ServiceKept (s.lane k) m := fun k m ⟨h1, h2⟩ => ⟨h1.trans (hk k).1, h2.trans (hk k).2⟩
  have hcut : ∀ k n {m : Lane}, ServiceCut n (u.lane k) m → ServiceCut n (s.lane k) m := fun k n m h => by
    obtain ⟨htx, hctr⟩ := hk k
    unfold ServiceCut at h ⊢
    rwa [htx, hctr] at h
  refine ⟨fun e k => hkept k (hsame e k), fun e => ?_⟩
  obtain ⟨hlost, hidle, hothers⟩ := hmoved e
  exact ⟨fun n hn => hcut 4 n (hlost n hn), fun hn => hkept 4 (hidle hn),
    fun m => ⟨fun hm => hcut _ m ((hothers m).1 hm), fun hm => hkept _ ((hothers m).2 hm)⟩⟩

theorem bridgingMoved_before (h : BridgingMoved a b s u) (hk : ∀ k, ServiceKept (u.lane k) (t.lane k)) : BridgingMoved a b s t := by
  obtain ⟨hsame, hmoved⟩ := h
  have hkept : ∀ k {l : Lane}, ServiceKept l (u.lane k) → ServiceKept l (t.lane k) := fun k l ⟨h1, h2⟩ => ⟨(hk k).1.trans h1, (hk k).2.trans h2⟩
  have hcut : ∀ k n {l : Lane}, ServiceCut n l (u.lane k) → ServiceCut n l (t.lane k) := fun k n l h => by
    obtain ⟨htx, hctr⟩ := hk k
    unfold ServiceCut at h ⊢
    rwa [htx, hctr]
  refine ⟨fun e k => hkept k (hsame e k), fun e => ?_⟩
  obtain ⟨hlost, hidle, hothers⟩ := hmoved e
  exact ⟨fun n hn => hcut 4 n (hlost n hn), fun hn => hkept 4 (hidle hn),
    fun m => ⟨fun hm => hcut _ m ((hothers m).1 hm), fun hm => hkept _ ((hothers m).2 hm)⟩⟩

theorem serviceKept_updLane {s : State} {k : LaneId} {g : Lane → Lane} (h : ServiceKept (s.lane k) (g (s.lane k))) (j : LaneId) :
    ServiceKept (s.lane j) ((s.updLane k g).lane j) := by
  by_cases hj : j = k
  · subst hj
    rw [State.updLane_lane_eq]
    exact h
  · rw [State.updLane_lane, if_neg hj]
    exact ⟨rfl, rfl⟩

theorem onlyLanesCut_of_switched (h : Switched s t) : OnlyLanesCut s t := h.1

end bridging

/-! ### The loss of L4 and of any lane (R127, R131, R136, R137, R140) -/

section loss
variable {s : State}

theorem setSteering_none (s : State) : setSteering none s = { s with
    prot := { s.prot with steering := none }
    agent := { s.agent with devices := s.agent.devices ||| (if s.prot.steering ≠ none then kindBit .protect else 0) } } := by
  unfold setSteering
  by_cases h : s.prot.steering = none
  · rw [if_pos h, if_neg (not_not.2 h), ← h]
    simp
  · rw [if_neg h, if_pos h]; rfl

theorem adopt_devices (v : Option PortId) (s : State) : (adopt v s).agent = { s.agent with devices := s.agent.devices ||| kindBit .protect } := by
  rw [adopt, (moveBridging_frame _ _ _).1]; rfl

theorem adopt_bridging {v : Option PortId} (h : s.prot.echo ≠ v) : BridgingMoved s.prot.echo v s (adopt v s) :=
  moveBridging_moved h (s.updProt fun p => { p with echo := v, steering := v })

theorem protect_bit (d : KindSet) : (d ||| kindBit .protect).getLsbD 1 = true := by simp [kindBit]

/-- The standby lane of a CAMPUS part is lost (R137). -/
theorem standbyLost_campus (h : s.role = .campus) : StandbyLost s (standbyLost s) ∧ (standbyLost s).prot = { s.prot with
      steering := (standbyLost s).prot.steering, echo := (standbyLost s).prot.echo, candidate := (standbyLost s).prot.candidate
      adoptCount := (standbyLost s).prot.adoptCount } := by
  have heq : standbyLost s = if s.prot.echo = none then clearAdoption s else adopt none (clearAdoption s) := by
    unfold standbyLost
    rw [h]; rfl
  rw [heq]
  by_cases hecho : s.prot.echo = none
  · rw [if_pos hecho]
    refine ⟨⟨fun hr => absurd (h.symm.trans hr) (by decide), fun _ => ⟨rfl, rfl, hecho, ?_, fun _ => rfl, fun hne => absurd hecho hne⟩⟩, rfl⟩
    rw [hecho]
    exact bridgingMoved_refl none s
  · rw [if_neg hecho]
    have hprot : (adopt none (clearAdoption s)).prot = { (clearAdoption s).prot with echo := none, steering := none } := adopt_prot _ _
    have hmoved : BridgingMoved s.prot.echo none s (adopt none (clearAdoption s)) := adopt_bridging (s := clearAdoption s) hecho
    refine ⟨⟨fun hr => absurd (h.symm.trans hr) (by decide), fun _ =>
      ⟨by rw [hprot]; rfl, by rw [hprot]; rfl, by rw [hprot], hmoved, fun hno => absurd hno hecho, fun _ => ⟨by rw [hprot], ?_⟩⟩⟩, by rw [hprot]; rfl⟩
    rw [adopt_devices]
    exact protect_bit _

/-- What a lane that becomes LOS, DARK or LOOPED leaves. -/
theorem laneMoved_setLaneState {k : LaneId} {st : LaneState} (hst : st ≠ .up) (hne : (s.lane k).state ≠ st) :
    LaneMoved k (s.updLane k fun l => { l with state := st }) (setLaneState k st s) := by
  have heq : setLaneState k st s = runArbiter (if k = standby ∧ st ≠ .up then standbyLost (reportDevice .lane (s.updLane k fun l => { l with state := st }))
      else reportDevice .lane (s.updLane k fun l => { l with state := st })) := if_neg hne
  rw [heq]
  generalize (s.updLane k fun l => { l with state := st }) = u
  refine ⟨_, rfl, fun hrack => ?_, fun hcampus hk => ?_, fun hcampus hk => ?_⟩
  · have hv : (if k = standby ∧ st ≠ .up then standbyLost (reportDevice .lane u) else reportDevice .lane u) = { u with
        prot := { u.prot with steering := if k = 4 ∧ u.role = .rack then none else u.prot.steering }
        agent := { u.agent with devices := u.agent.devices ||| kindBit .lane |||
          (if k = 4 ∧ u.role = .rack ∧ u.prot.steering ≠ none then kindBit .protect else 0) } } := by
      by_cases hk : k = standby
      · have hlost : standbyLost (reportDevice .lane u) = setSteering none (reportDevice .lane u) := by
          unfold standbyLost
          rw [reportDevice_role, hrack]
        rw [if_pos ⟨hk, hst⟩, hlost, setSteering_none]
        subst hk
        simp [standby, hrack, reportDevice_eq]
      · rw [if_neg fun h => hk h.1, if_neg fun h => hk h.1, if_neg fun h => hk h.1]
        simp [reportDevice_eq]
    rw [hv]
    exact arbiterRan (s := { u with prot := _, agent := _ }) hrack
  · rw [if_neg fun h => hk h.1, if_neg fun h => hk h.1, if_neg fun h => hk h.1, runArbiter_campus (s := reportDevice .lane u) hcampus]
    simp [reportDevice_eq]
  · subst hk
    have hv : ({ u with
        prot := { u.prot with steering := if (4 : LaneId) = 4 ∧ u.role = .rack then none else u.prot.steering }
        agent := { u.agent with devices := u.agent.devices ||| kindBit .lane |||
          (if (4 : LaneId) = 4 ∧ u.role = .rack ∧ u.prot.steering ≠ none then kindBit .protect else 0) } } : State) = reportDevice .lane u := by
      simp [hcampus, reportDevice_eq]
    have hrole : (standbyLost (reportDevice .lane u)).role = .campus := by rw [(standbyLost_switched _).role]; exact hcampus
    have ht : (if (4 : LaneId) = standby ∧ st ≠ .up then standbyLost (reportDevice .lane u) else reportDevice .lane u) =
        standbyLost (reportDevice .lane u) := if_pos ⟨rfl, hst⟩
    rw [hv, ht, runArbiter_campus hrole]
    obtain ⟨hlost, hprot⟩ := standbyLost_campus (s := reportDevice .lane u) hcampus
    obtain ⟨hcut, -, ⟨d, hd⟩, hframe⟩ := standbyLost_switched (reportDevice .lane u)
    refine ⟨hlost, hcut, hprot, ?_, hframe⟩
    rw [hd]

/-- L4 lost, told from the state before its own record moved. -/
theorem standbyLost_of_laneMoved {s u t : State} (h : LaneMoved 4 u t) (hstate : (u.lane 4).state ≠ .up) (hrole : u.role = s.role)
    (hprot : u.prot = s.prot) (hkept : ∀ k, ServiceKept (s.lane k) (u.lane k)) : StandbyLost s t := by
  obtain ⟨v, hv, hrack, -, hcampus⟩ := h
  refine ⟨fun hr => ?_, fun hc => ?_⟩
  · obtain ⟨available, cls, havail, -, hsel, -, -, -, hbridge, hagent, -, htprot, -⟩ := hrack (hrole.trans hr)
    have hno : available = false := by
      cases hb : available with
      | false => rfl
      | true =>
        have hup := (havail.1 hb).1
        rw [hv] at hup
        exact absurd hup hstate
    have hnone : t.prot.selection = none := by rw [hsel, hno]; rfl
    have hvsel : v.prot.selection = s.prot.selection := by rw [hv, ← hprot]
    have hvsteer : v.prot.steering = none := by rw [hv]; exact if_pos ⟨rfl, hrole.trans hr⟩
    refine ⟨by rw [htprot]; exact hvsteer, hnone, ?_, fun hmoved => ?_⟩
    · rw [hnone, hvsel] at hbridge
      refine bridgingMoved_after hkept ?_
      rw [hv] at hbridge
      exact hbridge
    · rw [hagent, hnone, hvsel]
      by_cases hs : s.prot.selection = none
      · have hst := hmoved.resolve_right (not_not.2 hs)
        rw [if_pos hs.symm, hv, hprot]
        show (u.agent.devices ||| kindBit .lane ||| (if (4 : LaneId) = 4 ∧ u.role = .rack ∧ s.prot.steering ≠ none then kindBit .protect else 0)).getLsbD 1 = true
        rw [if_pos ⟨rfl, hrole.trans hr, hst⟩]
        exact protect_bit _
      · rw [if_neg fun e => hs e.symm]
        exact protect_bit _
  · obtain ⟨⟨-, hlost⟩, -⟩ := hcampus (hrole.trans hc) rfl
    have hvrole : v.role = .campus := by rw [hv]; exact hrole.trans hc
    have hvprot : v.prot = s.prot := by
      rw [hv, ← hprot]
      show { u.prot with steering := if (4 : LaneId) = 4 ∧ u.role = .rack then none else u.prot.steering } = u.prot
      rw [if_neg fun h => absurd (h.2.symm.trans (hrole.trans hc)) (by decide)]
    obtain ⟨hcand, hcount, hecho, hbridge, hkeep, hmoved⟩ := hlost hvrole
    rw [hvprot] at hbridge hkeep hmoved
    refine ⟨hcand, hcount, hecho, bridgingMoved_after hkept ?_, hkeep, hmoved⟩
    rw [hv] at hbridge
    exact hbridge

/-- LANE is set where a lane moved. -/
theorem setLaneState_device {k : LaneId} {st : LaneState} (hne : (s.lane k).state ≠ st) : (setLaneState k st s).agent.devices.getLsbD 0 = true := by
  have hreported : (reportDevice .lane (s.updLane k fun l => { l with state := st })).agent.devices.getLsbD 0 = true := by
    rw [reportDevice_devices]
    simp [kindBit]
  have hrest : Switched (reportDevice .lane (s.updLane k fun l => { l with state := st })) (setLaneState k st s) := by
    unfold setLaneState
    rw [if_neg hne]
    refine Switched.trans ?_ (runArbiter_switched _).1
    split
    · exact standbyLost_switched _
    · exact Switched.refl _
  exact hrest.devices hreported

end loss

end Sys2Proof.Switching
end

section
/-! The LOS pins, the timers of a lane unit, the pattern stream and the beacon's content (R91, R124 to R128, R150, R178). -/

namespace Sys2Proof.LaneUnits
open Sys2Proof.Machine Sys2Proof.Safety

/-! ### A lane whose state is set (R127, R140) -/

section moved
variable {k : LaneId} {st : LaneState} {s : State}

theorem setLaneState_same (h : (s.lane k).state = st) : setLaneState k st s = s := if_pos h

theorem setLaneState_lane (k : LaneId) (st : LaneState) (s : State) : (setLaneState k st s).lane k = { s.lane k with
    state := st, tx := ((setLaneState k st s).lane k).tx, counters := ((setLaneState k st s).lane k).counters } := by
  have h := (setLaneState_switched k st s).lane k
  rwa [State.updLane_lane_eq] at h

theorem setLaneState_ctr (k : LaneId) (st : LaneState) (s : State) {ctr : LaneCtr} (hctr : ctr ≠ .lostOnSwitch) :
    ((setLaneState k st s).lane k).ctr ctr = (s.lane k).ctr ctr := by
  have h := ((setLaneState_switched k st s).1 k).2 ctr hctr
  rw [State.updLane_lane_eq] at h
  exact h

/-- What the setting of a lane's state leaves alone. -/
theorem setLaneState_frame (k : LaneId) (st : LaneState) (s : State) : setLaneState k st s = { s with
    lanes := (setLaneState k st s).lanes, prot := (setLaneState k st s).prot, agent := (setLaneState k st s).agent } := by
  obtain ⟨-, -, -, h⟩ := setLaneState_switched k st s
  exact h

end moved

/-! ### The LOS pins and the time counter (R91, R127) -/

theorem pinBit : ∀ j k : LaneId, (BitVec.ofNat 5 (2 ^ k.val)).getLsbD j.val = decide (j = k) := by decide

theorem los_asserted (los : BitVec 5) (j k : LaneId) :
    (los ||| BitVec.ofNat 5 (2 ^ k.val)).getLsbD j.val = (decide (j = k) || los.getLsbD j.val) := by
  rw [BitVec.getLsbD_or, pinBit, Bool.or_comm]

theorem los_released (los : BitVec 5) (j k : LaneId) :
    (los &&& ~~~ BitVec.ofNat 5 (2 ^ k.val)).getLsbD j.val = (decide (j ≠ k) && los.getLsbD j.val) := by
  rw [BitVec.getLsbD_and, BitVec.getLsbD_not, pinBit, Bool.and_comm]
  simp [j.isLt]

/-- The state with the LOS pin of a lane high. -/
def pinHigh (k : LaneId) (s : State) : State := { s with pins := { s.pins with los := s.pins.los ||| BitVec.ofNat 5 (2 ^ k.val) } }

/-- The state with the LOS pin of a lane low. -/
def pinLow (k : LaneId) (s : State) : State := { s with pins := { s.pins with los := s.pins.los &&& ~~~ BitVec.ofNat 5 (2 ^ k.val) } }

/-- The monitor of a lane set back, as LOS and the continuity timer leave it (R127, R128, R148). -/
def setBack (l : Lane) : Lane := { l with continuity := none, peerRun := 0, loopRun := none }

section pins
variable {k : LaneId} {s : State}

theorem exec_losAssert (h : s.pins.los.getLsbD k.val = false) :
    exec (.losAssert k) s = .next (settle (setLaneState k .los ((pinHigh k s).updLane k setBack))) :=
  congrArg Host.Outcome.next (if_neg (Bool.eq_false_iff.1 h))

theorem exec_losRelease (h : s.pins.los.getLsbD k.val = true) (hst : (s.lane k).state = .los) :
    exec (.losRelease k) s = .next (settle (setLaneState k .dark (restartContinuity k (pinLow k s)))) :=
  congrArg Host.Outcome.next ((if_pos h).trans (if_pos hst))

/-- A lane set to a state that it may already be in. -/
theorem setLaneState_upd {st : LaneState} {f : Lane → Lane} (hst : (f (s.lane k)).state = st) :
    setLaneState k st (s.updLane k f) = s.updLane k fun l => { f l with state := st } := by
  rw [setLaneState_same (by rw [State.updLane_lane_eq]; exact hst)]
  refine State.updLane_congr _ ?_
  rw [← hst]

theorem laneMoved_upd {st : LaneState} {f : Lane → Lane} (hup : st ≠ .up) (hst : (f (s.lane k)).state ≠ st) :
    LaneMoved k (s.updLane k fun l => { f l with state := st }) (setLaneState k st (s.updLane k f)) := by
  have hmoved := Switching.laneMoved_setLaneState (k := k) (s := s.updLane k f) hup (by rw [State.updLane_lane_eq]; exact hst)
  rwa [State.updLane_updLane] at hmoved

theorem setLaneState_upd_lane (st : LaneState) (f : Lane → Lane) : ∃ tx counters, (setLaneState k st (s.updLane k f)).lane k =
    { f (s.lane k) with state := st, tx, counters } := by
  have h := setLaneState_lane k st (s.updLane k f)
  rw [State.updLane_lane_eq] at h
  exact ⟨_, _, h⟩

end pins

/-- Settles O5: a pin asserted, a pin released, the counter. -/
theorem losPinAndTime : Obligations.LosPinAndTime := by
  refine ⟨⟨fun k s h => ?_, fun k s h hst => ?_⟩, fun s h => ⟨{ s with time := s.time + 1 }, congrArg Host.Outcome.next (if_pos h), ?_, rfl⟩,
    fun s h => congrArg Host.Outcome.next (if_neg (by simp [h]))⟩
  · have hframe := setLaneState_frame k .los ((pinHigh k s).updLane k setBack)
    have hpins : (setLaneState k .los ((pinHigh k s).updLane k setBack)).pins = (pinHigh k s).pins := by rw [hframe]; rfl
    obtain ⟨tx, counters, hlane⟩ := setLaneState_upd_lane (k := k) (s := pinHigh k s) .los setBack
    refine ⟨_, _, exec_losAssert h, fun j => ?_, rfl, fun hst => ?_, fun hst => ?_, ?_, ?_, ?_, ?_, ?_⟩
    · rw [hpins]
      exact los_asserted _ j k
    · rw [hpins]
      exact setLaneState_upd (s := pinHigh k s) hst
    · rw [hpins]
      exact laneMoved_upd (s := pinHigh k s) (st := .los) (f := setBack) (by decide) hst
    · rw [hlane]
    · rw [hlane]; rfl
    · rw [hlane]; rfl
    · rw [hlane]; rfl
    · rw [hpins]
      exact hframe
  · have hframe := setLaneState_frame k .dark (restartContinuity k (pinLow k s))
    have hpins : (setLaneState k .dark (restartContinuity k (pinLow k s))).pins = (pinLow k s).pins := by rw [hframe]; rfl
    obtain ⟨tx, counters, hlane⟩ := setLaneState_upd_lane (k := k) (s := pinLow k s) .dark
      fun l => { l with continuity := some (startTimer (pinLow k s) (350 * (pinLow k s).prot.interval)) }
    have hdark : (s.lane k).state ≠ .dark := by rw [hst]; decide
    refine ⟨_, _, exec_losRelease h hst, fun j => ?_, rfl, ?_, ?_, ?_, ?_⟩
    · rw [hpins]
      exact los_released _ j k
    · rw [hpins]
      exact laneMoved_upd (s := pinLow k s) (st := .dark)
        (f := fun l => { l with continuity := some (startTimer (pinLow k s) (350 * (pinLow k s).prot.interval)) }) (by decide) hdark
    · exact (congrArg Lane.state hlane).trans rfl
    · exact (congrArg Lane.continuity hlane).trans rfl
    · rw [hpins]
      exact hframe
  · show (s.time + 1).toNat = _
    rw [BitVec.toNat_add]; rfl

/-! ### The pattern stream (R150) -/

/-- The register after `n` more bits of the stream. -/
def regAfter : Nat → BitVec 23 → BitVec 23
  | 0, r => r
  | n + 1, r => pushBit (regAfter n r) (patternBit (regAfter n r))

theorem regAfter_add (r : BitVec 23) (m n : Nat) : regAfter m (regAfter n r) = regAfter (n + m) r := by
  induction m with
  | zero => rfl
  | succ m ih =>
    show pushBit (regAfter m (regAfter n r)) (patternBit (regAfter m (regAfter n r))) = _
    rw [ih]; rfl

theorem pushBit_zero (r : BitVec 23) (b : Bool) : (pushBit r b).getLsbD 0 = b := by cases b <;> simp [pushBit]

theorem pushBit_succ (r : BitVec 23) (b : Bool) {j : Nat} (hj : j < 22) : (pushBit r b).getLsbD (j + 1) = r.getLsbD j := by
  have hlt : j + 1 < 23 := by omega
  cases b <;> simp [pushBit, hlt, BitVec.getLsbD_eq_getElem (by omega : j < 23)]

/-- Bit `i` of the stream: the bit that leaves the register last. -/
def streamBit (r : BitVec 23) (i : Nat) : Bool := (regAfter i r).getLsbD 22

/-- The register holds the 23 bits of the stream from its place on. -/
theorem regAfter_getLsbD (r : BitVec 23) (n : Nat) {j : Nat} (hj : j < 23) : (regAfter n r).getLsbD (22 - j) = streamBit r (n + j) := by
  induction j generalizing n with
  | zero => rfl
  | succ j ih =>
    have hstep : (regAfter (n + 1) r).getLsbD (22 - j) = (regAfter n r).getLsbD (22 - (j + 1)) := by
      have hsub : 22 - j = 22 - (j + 1) + 1 := by omega
      rw [hsub]
      exact pushBit_succ _ _ (by omega)
    rw [← hstep, ih (n + 1) (by omega)]
    congr 1
    omega

/-- The next bit of the stream is the pattern bit of the register. -/
theorem streamBit_patternBit (r : BitVec 23) (i : Nat) : streamBit r (i + 23) = patternBit (regAfter i r) := by
  have hsum : i + 23 = i + 1 + 22 := by omega
  rw [hsum, ← regAfter_getLsbD r (i + 1) (by omega : 22 < 23)]
  exact pushBit_zero _ _

theorem streamBit_recurs (r : BitVec 23) (i : Nat) : streamBit r (i + 23) = (streamBit r i != streamBit r (i + 5)) := by
  rw [streamBit_patternBit, ← regAfter_getLsbD r i (by omega : 5 < 23)]; rfl

/-- The bits taken into a number, first bit most significant, behind what it held. -/
theorem patternBits_testBit (n : Nat) (r : BitVec 23) (acc j : Nat) :
    (patternBits n r acc).1.testBit j = if j < n then patternBit (regAfter (n - 1 - j) r) else acc.testBit (j - n) := by
  induction n generalizing r acc with
  | zero => rfl
  | succ n ih =>
    show (patternBits n (regAfter 1 r) (2 * acc + (if patternBit r then 1 else 0))).1.testBit j = _
    rw [ih, regAfter_add]
    by_cases hlt : j < n
    · rw [if_pos hlt, if_pos (by omega)]
      congr 2
      omega
    · rw [if_neg hlt]
      obtain ⟨d, rfl⟩ : ∃ d, j = n + d := ⟨j - n, by omega⟩
      rw [Nat.add_sub_cancel_left]
      cases d with
      | zero =>
        have hzero : n + 1 - 1 - (n + 0) = 0 := by omega
        have hlast : n + 0 < n + 1 := by omega
        rw [if_pos hlast, hzero]
        cases hb : patternBit r <;> simp [regAfter, hb]
      | succ d =>
        have hsucc : n + (d + 1) - (n + 1) = d := by omega
        have hpast : ¬ n + (d + 1) < n + 1 := by omega
        have hhalf : (2 * acc + (if patternBit r = true then 1 else 0)) / 2 = acc := by split <;> omega
        rw [if_neg hpast, hsucc, Nat.testBit_succ, hhalf]

theorem patternBits_reg (n : Nat) (r : BitVec 23) (acc : Nat) : (patternBits n r acc).2 = regAfter n r := by
  induction n generalizing r acc with
  | zero => rfl
  | succ n ih =>
    show (patternBits n (regAfter 1 r) _).2 = _
    rw [ih, regAfter_add, Nat.add_comm]

theorem patternBytes_reg (n : Nat) (r : BitVec 23) : (patternBytes n r).2 = regAfter (8 * n) r := by
  induction n generalizing r with
  | zero => rfl
  | succ n ih =>
    show (patternBytes n (patternBits 8 r 0).2).2 = _
    rw [ih, patternBits_reg, regAfter_add]
    congr 1
    omega

theorem patternBytes_length (n : Nat) (r : BitVec 23) : (patternBytes n r).1.length = n := by
  induction n generalizing r with
  | zero => rfl
  | succ n ih => exact congrArg (· + 1) (ih _)

/-- The bits of the bytes are those of the stream, first bit most significant. -/
theorem patternBytes_bit (n : Nat) (r : BitVec 23) {i : Nat} (hi : i < 8 * n) :
    ((patternBytes n r).1.getD (i / 8) 0).getLsbD (7 - i % 8) = streamBit r (i + 23) := by
  rw [streamBit_patternBit]
  induction n generalizing r i with
  | zero => omega
  | succ n ih =>
    show ((BitVec.ofNat 8 (patternBits 8 r 0).1 :: (patternBytes n (patternBits 8 r 0).2).1).getD (i / 8) 0).getLsbD (7 - i % 8) = _
    by_cases hlt : i < 8
    · have hdiv : i / 8 = 0 := by omega
      have hmod : i % 8 = i := by omega
      rw [hdiv, hmod, List.getD_cons_zero, BitVec.getLsbD_ofNat, patternBits_testBit, if_pos (by omega)]
      have hback : 8 - 1 - (7 - i) = i := by omega
      have hbyte : 7 - i < 8 := by omega
      simp [hback, hbyte]
    · obtain ⟨d, rfl⟩ : ∃ d, i = d + 8 := ⟨i - 8, by omega⟩
      have hdiv : (d + 8) / 8 = d / 8 + 1 := by omega
      rw [hdiv, List.getD_cons_succ, Nat.add_mod_right, ih _ (by omega), patternBits_reg, regAfter_add, Nat.add_comm]

/-! ### The timers of a lane unit (R124, R128, R150) -/

section timers
variable {k : LaneId} {s : State} {r : Timer}

theorem exec_continuityTimerExpiry (hr : (s.lane k).continuity = some r) (hdue : r.len ≤ (s.time - r.start).toNat) :
    exec (.continuityTimerExpiry k) s = .next (continuityExpired k s) :=
  congrArg Host.Outcome.next (if_pos (by rw [hr]; exact timerDue_of_le hdue))

theorem exec_beaconTimerExpiry (hr : (s.lane k).beaconTimer = some r) (hdue : r.len ≤ (s.time - r.start).toNat) (hb : blocked s = false) :
    exec (.beaconTimerExpiry k) s = .next (beaconExpired k s) :=
  congrArg Host.Outcome.next (if_pos (by rw [hr, timerDue_of_le hdue, hb]; rfl))

theorem exec_rateTimerExpiry (hr : (s.lane k).rateTimer = some r) (hdue : r.len ≤ (s.time - r.start).toNat) (hb : blocked s = false) :
    exec (.rateTimerExpiry k) s = .next (rateExpired k s) :=
  congrArg Host.Outcome.next (if_pos (by rw [hr, timerDue_of_le hdue, hb]; rfl))

/-- A lane that was UP or LOOPED falls to DARK and counts (R127, R140). -/
theorem continuityExpired_falls (h : (s.lane k).state = .up ∨ (s.lane k).state = .looped) : continuityExpired k s =
    settle (setLaneState k .dark (s.updLane k fun l => (setBack l).count .continuityLosses)) := by
  have hcount : (s.updLane k setBack).countLane k .continuityLosses = s.updLane k fun l => (setBack l).count .continuityLosses :=
    State.updLane_updLane ..
  rw [← hcount]
  rcases h with h | h <;> (unfold continuityExpired; simp only [h]; rfl)

theorem continuityExpired_stays (h : (s.lane k).state = .dark ∨ (s.lane k).state = .los) : continuityExpired k s = s.updLane k setBack := by
  rcases h with h | h <;> (unfold continuityExpired; simp only [h]; rfl)

/-- The channel field of a channel 1 frame (R4). -/
theorem linkHeader_eq (s : State) (control epoch : Byte) (n : Seq) :
    linkHeader s control epoch n = ⟨control, epoch, if s.role = .campus then 0x8001 else 0x0001, n⟩ := by
  unfold linkHeader
  cases s.role <;> rfl

theorem padMessage_beacon (k : LaneId) (s : State) : padMessage 44 (beaconBytes k s) = beaconBytes k s ++ [0, 0, 0, 0] := by
  simp [padMessage, padTo, beaconBytes, Config.sentMin, List.replicate]

theorem failedSet_updLane {f : Lane → Lane} (hst : ∀ l, (f l).state = l.state) : failedSet (s.updLane k f) = failedSet s := by
  have hlane : ∀ j, laneFailed (s.updLane k f) j = laneFailed s j := fun j => by
    unfold laneFailed
    rw [State.updLane_lane]
    split
    · rw [hst]
    · rfl
  simp only [failedSet, hlane]

/-- A beacon's values are those of the state, whatever its timer (R125). -/
theorem beaconBytes_beaconTimer (x : Option Timer) : beaconBytes k (s.updLane k fun l => { l with beaconTimer := x }) = beaconBytes k s := by
  unfold beaconBytes
  rw [failedSet_updLane (f := fun l => { l with beaconTimer := x }) fun _ => rfl, State.updLane_lane_eq]
  rfl

theorem beaconExpired_generates (h : (s.lane k).loopMode ≠ .line) : beaconExpired k s =
    settle (generateBeacon k (s.updLane k fun l => { l with beaconTimer := some { start := s.time, len := 100 * s.prot.interval } })) := if_neg h

theorem rateExpired_generates (h : (s.lane k).loopMode ≠ .line) : rateExpired k s =
    settle (generateTest k (s.updLane k fun l => { l with rateTimer := some { start := s.time, len := 1000000 / l.rate } })) := if_neg h

theorem generateBeacon_withheld {ctr : ChanCtr} {t : State} (h : assignSequence 1 (.unit k) s = (.inl ctr, t)) :
    generateBeacon k s = t.countLane k .beaconWithheld := by
  unfold generateBeacon
  rw [h]

theorem generateBeacon_made {w : Work} {epoch : Byte} {t : State} (h : assignSequence 1 (.unit k) s = (.inr (w, epoch), t)) :
    generateBeacon k s = t.updLane k fun l => { l with unitLine := l.unitLine ++ [.protecting .beacon w
      ⟨0x50, epoch, if s.role = .campus then 0x8001 else 0x0001, w.seq⟩ s.ownAddr (beaconBytes k s ++ [0, 0, 0, 0])] } := by
  unfold generateBeacon
  rw [h]
  simp only [linkHeader_eq, padMessage_beacon, controlBeacon]

theorem generateTest_withheld {ctr : ChanCtr} {t : State} (h : assignSequence 1 (.unit k) s = (.inl ctr, t)) :
    generateTest k s = t.countLane k .testWithheld := by
  unfold generateTest
  rw [h]

/-- A test frame takes the next bytes of the stream and uses up the inject (R150). -/
theorem generateTest_made {w : Work} {epoch : Byte} {t : State} {bytes : List Byte × BitVec 23} (h : assignSequence 1 (.unit k) s = (.inr (w, epoch), t))
    (hbytes : bytes = patternBytes ((s.lane k).innerLen - 16) (s.lane k).pattern) :
    generateTest k s = t.updLane k fun l => { l.count .testGenerated with
      pattern := bytes.2
      inject := .none
      unitLine := l.unitLine ++ [.protecting (.test (decide ((s.lane k).inject = .tag))) w
        ⟨0x48, epoch, if s.role = .campus then 0x8001 else 0x0001, w.seq⟩ s.ownAddr
        (if (s.lane k).inject = .pattern then bytes.1.set 8 (bytes.1.getD 8 0 ^^^ 0x80) else bytes.1)] } := by
  subst hbytes
  have htag : ((s.lane k).inject == .tag) = decide ((s.lane k).inject = .tag) := by cases (s.lane k).inject <;> rfl
  unfold generateTest
  rw [h]
  simp only [linkHeader_eq, controlTest, invertBit64, htag, State.countLane, State.updLane_updLane]
  rfl

end timers

/-- Settles O22: the continuity timer, the beacon timer, the pattern stream and the rate timer. -/
theorem laneTimersExpire : Obligations.LaneTimersExpire := by
  refine ⟨fun k s r hr hdue => ⟨_, rfl, fun hst => ?_, fun hst => ?_⟩, fun k s r hr hdue hb => ⟨_, rfl, fun hm => ?_, fun ctr t hm ha => ?_, fun w epoch t hm ha => ?_⟩,
    fun n r => ⟨streamBit r, fun i hi => ?_, streamBit_recurs r, patternBytes_length n r, fun i => patternBytes_bit n r, fun i hi => ?_⟩,
    fun k s r hr hdue hb => ⟨_, rfl, fun hm => ?_, fun ctr t hm ha => ?_, fun w epoch t payload hm ha hp => ?_⟩⟩
  · rw [exec_continuityTimerExpiry hr hdue, continuityExpired_stays hst]; rfl
  · have hne : (s.lane k).state ≠ .dark := by rcases hst with h | h <;> rw [h] <;> decide
    obtain ⟨tx, counters, hlane⟩ := setLaneState_upd_lane (k := k) (s := s) .dark fun l => (setBack l).count .continuityLosses
    refine ⟨_, by rw [exec_continuityTimerExpiry hr hdue, continuityExpired_falls hst], ?_, ?_, ?_, ?_, ?_, ?_, ?_, ?_⟩
    · rw [State.updLane_updLane]
      exact laneMoved_upd (by decide) hne
    · rw [hlane]
    · rw [hlane]; rfl
    · rw [hlane]; rfl
    · rw [hlane]; rfl
    · rw [setLaneState_ctr _ _ _ (by decide), State.updLane_lane_eq, Lane.ctr_count, if_pos rfl]; rfl
    · exact Switching.setLaneState_device (by rw [State.updLane_lane_eq]; exact hne)
    · exact setLaneState_frame ..
  · rw [exec_beaconTimerExpiry hr hdue hb]
    exact congrArg Host.Outcome.next (if_pos hm)
  · rw [exec_beaconTimerExpiry hr hdue hb, beaconExpired_generates hm, generateBeacon_withheld ha]
  · rw [exec_beaconTimerExpiry hr hdue hb, beaconExpired_generates hm, generateBeacon_made ha, beaconBytes_beaconTimer]
    rfl
  · have hzero := regAfter_getLsbD r 0 hi
    rw [Nat.zero_add] at hzero
    exact hzero.symm
  · rw [patternBytes_reg, regAfter_getLsbD r _ hi]
  · rw [exec_rateTimerExpiry hr hdue hb]
    exact congrArg Host.Outcome.next (if_pos hm)
  · rw [exec_rateTimerExpiry hr hdue hb, rateExpired_generates hm, generateTest_withheld ha]
  · have hlane : (s.updLane k fun l => { l with rateTimer := some { start := s.time, len := 1000000 / l.rate } }).lane k =
        { s.lane k with rateTimer := some { start := s.time, len := 1000000 / (s.lane k).rate } } := State.updLane_lane_eq ..
    rw [exec_rateTimerExpiry hr hdue hb, rateExpired_generates hm, generateTest_made ha rfl]
    subst hp
    have hs1 : ∀ x : Lane, x = { s.lane k with rateTimer := some { start := s.time, len := 1000000 / (s.lane k).rate } } → x.innerLen = (s.lane k).innerLen ∧
        x.pattern = (s.lane k).pattern ∧ x.inject = (s.lane k).inject := fun x hx => by subst hx; exact ⟨rfl, rfl, rfl⟩
    obtain ⟨hlen, hpat, hinj⟩ := hs1 _ hlane
    refine congrArg (fun u => Host.Outcome.next (settle u)) (State.updLane_congr _ ?_)
    rw [hlen, hpat, hinj]
    rfl

/-! ### The content of a beacon (R125, R178) -/

theorem laneStateOf_none_iff : ∀ n, laneStateOf n = none ↔ 3 < n
  | 0 | 1 | 2 | 3 => by simp [laneStateOf]
  | n + 4 => ⟨fun _ => by omega, fun _ => rfl⟩

theorem laneStateOf_some {n : Nat} {c : LaneState} (h : laneStateOf n = some c) : conditionCode c = n := by
  unfold laneStateOf at h
  split at h <;> cases h <;> rfl

theorem loopFieldOf_none_iff : ∀ n, loopFieldOf n = none ↔ 2 < n
  | 0 | 1 | 2 => by simp [loopFieldOf]
  | n + 3 => ⟨fun _ => by omega, fun _ => rfl⟩

theorem loopFieldOf_some {n : Nat} {f : LoopField} (h : loopFieldOf n = some f) : loopCode f = n := by
  unfold loopFieldOf at h
  split at h <;> cases h <;> rfl

theorem portOfByte_none_iff (b : Byte) : portOfByte b = none ↔ 3 < b.toNat ∧ b.toNat ≠ 0xFF := by
  have hff : b = 0xFF ↔ b.toNat = 0xFF := BitVec.toNat_inj.symm
  unfold portOfByte
  by_cases h : b = 0xFF
  · simp [h]
  · have hne : b.toNat ≠ 0xFF := fun e => h (hff.2 e)
    rw [if_neg h]
    split <;> simp [hne] <;> omega

theorem portOfByte_some {b : Byte} {p : Option PortId} (h : portOfByte b = some p) : (p.map (·.val)).getD 0xFF = b.toNat := by
  unfold portOfByte at h
  split at h
  · next hff => cases h; rw [hff]; rfl
  · split at h
    · cases h; rfl
    · cases h

/-- The first tests of a beacon: its length, the sender role, the lane number and the far-fail set (R178; log 20). -/
def Misread (payload : List Byte) (origin : Bool) : Prop :=
  payload.length < 16 ∨ (payload.getD 0 0).toNat ≠ (if origin then 1 else 0) ∨ 4 < (payload.getD 1 0).toNat ∨ (payload.getD 3 0).toNat ≥ 32

theorem parseBeacon_misread {payload : List Byte} {origin : Bool} (h : Misread payload origin) : parseBeacon payload origin = none := if_pos h

theorem parseBeacon_read {payload : List Byte} {origin : Bool} (h : ¬ Misread payload origin) : parseBeacon payload origin =
    match laneStateOf (payload.getD 2 0).toNat, portOfByte (payload.getD 4 0), portOfByte (payload.getD 5 0), loopFieldOf (payload.getD 6 0).toNat with
    | some condition, some bridgedLane, some echo, some loop => some
        { sender := if origin then .campus else .rack, lane := (payload.getD 1 0).toNat, condition, farFail := (payload.getD 3 0).setWidth 5
          bridgedLane, echo, loop, time := BitVec.ofNat 64 (numAt payload 8 8) }
    | _, _, _, _ => none :=
  if_neg h

/-- A beacon that is defined, by its bytes (R178). -/
theorem parseBeacon_some_iff {payload : List Byte} {origin : Bool} {c : BeaconContent} : parseBeacon payload origin = some c ↔
    ¬ Misread payload origin ∧
    laneStateOf (payload.getD 2 0).toNat = some c.condition ∧ portOfByte (payload.getD 4 0) = some c.bridgedLane ∧
    portOfByte (payload.getD 5 0) = some c.echo ∧ loopFieldOf (payload.getD 6 0).toNat = some c.loop ∧
    c.sender = (if origin then .campus else .rack) ∧ c.lane = (payload.getD 1 0).toNat ∧ c.farFail = (payload.getD 3 0).setWidth 5 ∧
    c.time = BitVec.ofNat 64 (numAt payload 8 8) := by
  obtain ⟨sender, lane, condition, farFail, bridgedLane, echo, loop, time⟩ := c
  by_cases h : Misread payload origin
  · rw [parseBeacon_misread h]
    exact ⟨fun e => (by cases e), fun ⟨hno, _⟩ => absurd h hno⟩
  · rw [parseBeacon_read h, and_iff_right h]
    cases laneStateOf (payload.getD 2 0).toNat with
    | none => simp
    | some condition' =>
      cases portOfByte (payload.getD 4 0) with
      | none => simp
      | some bridged' =>
        cases portOfByte (payload.getD 5 0) with
        | none => simp
        | some echo' =>
          cases loopFieldOf (payload.getD 6 0).toNat with
          | none => simp
          | some loop' =>
            simp only [Option.some.injEq, BeaconContent.mk.injEq]
            constructor
            · rintro ⟨rfl, rfl, rfl, rfl, rfl, rfl, rfl, rfl⟩
              exact ⟨rfl, rfl, rfl, rfl, rfl, rfl, rfl, rfl⟩
            · rintro ⟨rfl, rfl, rfl, rfl, rfl, rfl, rfl, rfl⟩
              exact ⟨rfl, rfl, rfl, rfl, rfl, rfl, rfl, rfl⟩

/-- A beacon is undefined by its sender role, lane number, condition, far-fail set, bridged lane, echo or loop field (R178; log 20). -/
theorem parseBeacon_none_iff (payload : List Byte) (origin : Bool) : parseBeacon payload origin = none ↔
    payload.length < 16 ∨ (payload.getD 0 0).toNat ≠ (if origin then 1 else 0) ∨ 4 < (payload.getD 1 0).toNat ∨ 3 < (payload.getD 2 0).toNat ∨
      31 < (payload.getD 3 0).toNat ∨ 3 < (payload.getD 4 0).toNat ∧ (payload.getD 4 0).toNat ≠ 0xFF ∨
      3 < (payload.getD 5 0).toNat ∧ (payload.getD 5 0).toNat ≠ 0xFF ∨ 2 < (payload.getD 6 0).toNat := by
  rw [← laneStateOf_none_iff, ← portOfByte_none_iff, ← portOfByte_none_iff, ← loopFieldOf_none_iff]
  by_cases h : Misread payload origin
  · rw [parseBeacon_misread h]
    obtain h | h | h | h := h <;> simp only [true_iff]
    · exact .inl h
    · exact .inr (.inl h)
    · exact .inr (.inr (.inl h))
    · exact .inr (.inr (.inr (.inr (.inl h))))
  · have hlate : ∀ q r : Prop, (payload.length < 16 ∨ (payload.getD 0 0).toNat ≠ (if origin then 1 else 0) ∨ 4 < (payload.getD 1 0).toNat ∨ q ∨
        31 < (payload.getD 3 0).toNat ∨ r) ↔ q ∨ r := fun q r => by
      constructor
      · rintro (hm | hm | hm | hq | hm | hr)
        · exact absurd (.inl hm) h
        · exact absurd (.inr (.inl hm)) h
        · exact absurd (.inr (.inr (.inl hm))) h
        · exact .inl hq
        · exact absurd (.inr (.inr (.inr hm))) h
        · exact .inr hr
      · exact fun hqr => .inr (.inr (.inr (hqr.imp_right .inr)))
    rw [parseBeacon_read h, hlate]
    cases laneStateOf (payload.getD 2 0).toNat <;> cases portOfByte (payload.getD 4 0) <;> cases portOfByte (payload.getD 5 0) <;>
      cases loopFieldOf (payload.getD 6 0).toNat <;> simp

/-- The fields of a defined beacon stand in its bytes (R178). -/
theorem parseBeacon_fields {payload : List Byte} {origin : Bool} {c : BeaconContent} (h : parseBeacon payload origin = some c) :
    c.sender = (if origin then .campus else .rack) ∧ c.lane = (payload.getD 1 0).toNat ∧ conditionCode c.condition = (payload.getD 2 0).toNat ∧
      c.farFail.toNat = (payload.getD 3 0).toNat ∧ (c.bridgedLane.map (·.val)).getD 0xFF = (payload.getD 4 0).toNat ∧
      (c.echo.map (·.val)).getD 0xFF = (payload.getD 5 0).toNat ∧ loopCode c.loop = (payload.getD 6 0).toNat ∧ c.time.toNat = numAt payload 8 8 := by
  obtain ⟨hdefined, hcond, hbridged, hecho, hloop, hsender, hlane, hfar, htime⟩ := parseBeacon_some_iff.1 h
  refine ⟨hsender, hlane, laneStateOf_some hcond, ?_, portOfByte_some hbridged, portOfByte_some hecho, loopFieldOf_some hloop, ?_⟩
  · have hlow : ¬ 31 < (payload.getD 3 0).toNat := fun hlt => hdefined (.inr (.inr (.inr hlt)))
    rw [hfar, BitVec.toNat_setWidth]
    exact Nat.mod_eq_of_lt (by omega)
  · rw [htime, BitVec.toNat_ofNat]
    exact Nat.mod_eq_of_lt (numAt_lt payload 8 8)

theorem portOfByte_portOrNone (p : Option PortId) : portOfByte (portOrNone p) = some p := by
  cases p with
  | none => rfl
  | some n => fin_cases n <;> rfl

/-- Settles O23: the far-fail set by its bits, and each byte of the beacon read back. -/
theorem beaconReadsBack : Obligations.BeaconReadsBack := by
  refine ⟨fun s k => ?_, fun k s => ?_⟩
  · rw [failedSet_bit]
    simp [laneFailed]
  · have hfar : (failedSet s).toNat < 32 := (failedSet s).isLt
    have hk : k.val < 5 := k.isLt
    have htime : numAt (beaconBytes k s ++ [0, 0, 0, 0]) 8 8 = s.time.toNat :=
      numAt_beBytes [BitVec.ofNat 8 (roleCode s.role), BitVec.ofNat 8 k.val, BitVec.ofNat 8 (laneStateCode (s.lane k).state),
        BitVec.ofNat 8 (failedSet s).toNat, portOrNone (if s.role = .rack then s.prot.selection else none),
        portOrNone (if s.role = .campus then s.prot.echo else none), BitVec.ofNat 8 (loopFieldCode (s.lane k).loopField), 0] [0, 0, 0, 0] 8 s.time.toNat
        s.time.isLt
    have hbyte : ∀ n, n < 256 → (BitVec.ofNat 8 n).toNat = n := fun n hn => by
      rw [BitVec.toNat_ofNat]
      exact Nat.mod_eq_of_lt hn
    have hlanebyte : ((beaconBytes k s ++ [0, 0, 0, 0]).getD 1 0).toNat = k.val := hbyte _ (by omega)
    have hfarbyte : ((beaconBytes k s ++ [0, 0, 0, 0]).getD 3 0).toNat = (failedSet s).toNat := hbyte _ (by omega)
    have hlength : (beaconBytes k s ++ [0, 0, 0, 0]).length = 20 := by simp [beaconBytes]
    rw [padMessage_beacon, parseBeacon_some_iff]
    refine ⟨?_, ?_, portOfByte_portOrNone _, portOfByte_portOrNone _, ?_, ?_, hlanebyte.symm, ?_, ?_⟩
    · have hrole : ((beaconBytes k s ++ [0, 0, 0, 0]).getD 0 0).toNat = if decide (s.role = .campus) then 1 else 0 := by
        show (BitVec.ofNat 8 (roleCode s.role)).toNat = _
        cases s.role <;> rfl
      unfold Misread
      rw [hrole, hlength, hlanebyte, hfarbyte]
      omega
    · show laneStateOf (BitVec.ofNat 8 (laneStateCode (s.lane k).state)).toNat = _
      cases (s.lane k).state <;> rfl
    · show loopFieldOf (BitVec.ofNat 8 (loopFieldCode (s.lane k).loopField)).toNat = _
      cases (s.lane k).loopField <;> rfl
    · cases s.role <;> rfl
    · refine BitVec.eq_of_toNat_eq ?_
      rw [BitVec.toNat_setWidth, hfarbyte]
      exact (Nat.mod_eq_of_lt hfar).symm
    · rw [htime]
      rw [BitVec.ofNat_toNat]
      exact (BitVec.setWidth_eq s.time).symm

end Sys2Proof.LaneUnits
end

section
/-! The statements on inbound lookups, verify completions and the hand-on (R40, R44, R47, R48, R80 to R87, R102, R103, R116, R152, R153). -/

namespace Sys2Proof.Inbound
open Sys2Proof.Machine Sys2Proof.Safety

/-! ### Lookups of a lane (R44, R47, R48) -/

theorem holdsLookups_iff (a : InItem) : holdsLookups a = true ↔ ∃ w f own port, a = .verifying w f own port ∧ 2 ≤ w.chan.val := by
  cases a <;> simp [holdsLookups]

theorem underLookup_eq_false {a : InItem} (h : lookupGen a = none) : underLookup a = false := by
  cases a <;> simp_all [lookupGen, underLookup]

theorem lookUp_other {s : State} {a : InItem} (hc : ∀ f n, a ≠ .clear f n) (hr : ∀ inner n c octets own, a ≠ .recovered inner n c octets own) :
    lookUp s a = a := by
  unfold lookUp
  split
  · exact absurd rfl (hc _ _)
  · exact absurd rfl (hr _ _ _ _ _)
  · rfl

/-- A frame's lookup is held back by a traffic frame in verification at or before it (R44; log 34). -/
theorem held_iff (items : List InItem) (i : Nat) : (items.take (i + 1)).any holdsLookups = true ↔
    ∃ (j : Nat) (w : Work) (f : Frame) (own : Bool) (port : Option PortId), items[j]? = some (.verifying w f own port) ∧ j ≤ i ∧ 2 ≤ w.chan.val := by
  rw [List.any_eq_true]
  constructor
  · rintro ⟨a, ha, hold⟩
    obtain ⟨w, f, own, port, rfl, hw⟩ := (holdsLookups_iff a).1 hold
    obtain ⟨j, hj⟩ := List.mem_iff_getElem?.1 ha
    rw [List.getElem?_take] at hj
    split at hj
    · exact ⟨j, w, f, own, port, hj, by omega, hw⟩
    · cases hj
  · rintro ⟨j, w, f, own, port, hj, hle, hw⟩
    refine ⟨_, List.mem_iff_getElem?.2 ⟨j, ?_⟩, (holdsLookups_iff _).2 ⟨w, f, own, port, rfl, hw⟩⟩
    rw [List.getElem?_take, if_pos (by omega)]
    exact hj

section ends
variable {k : LaneId} {s : State} {pre post : List InItem}

/-- The oldest lookup of a lane, by its place in the line. -/
theorem oldest_lookup {x : InItem} (hline : (s.lane k).inLine = pre ++ x :: post) (hx : underLookup x = true) (hpre : ∀ a ∈ pre, lookupGen a = none) :
    resultIndex (s.lane k).inLine = pre.length ∧ (s.lane k).inLine[pre.length]? = some x := by
  rw [hline]
  exact ⟨resultIndex_eq hx fun a ha => underLookup_eq_false (hpre a ha), by simp⟩

theorem exec_inboundLookupEnd {f : Frame} {n : PortId} {r : Lookup} (hline : (s.lane k).inLine = pre ++ .lookup f n r :: post)
    (hpre : ∀ a ∈ pre, lookupGen a = none) :
    exec (.inboundLookupEnd k) s = .next (actInbound k pre.length f n r.verdict (countHit r s)) := by
  show Host.Outcome.next (endInboundLookup k s) = _
  obtain ⟨hidx, hget⟩ := oldest_lookup hline rfl hpre
  unfold endInboundLookup
  simp only [hidx, hget]

/-- No clear-frame lookup ends while a return check is the oldest lookup of the lane (R44). -/
theorem exec_inboundLookupEnd_checking {inner : Frame} {n : PortId} {c : Chan} {octets : Nat} {own : Bool} {r : Lookup}
    (hline : (s.lane k).inLine = pre ++ .checking inner n c octets own r :: post) (hpre : ∀ a ∈ pre, lookupGen a = none) :
    exec (.inboundLookupEnd k) s = .next s := by
  show Host.Outcome.next (endInboundLookup k s) = _
  obtain ⟨hidx, hget⟩ := oldest_lookup hline rfl hpre
  unfold endInboundLookup
  simp only [hidx, hget]

theorem exec_returnCheck_other {i : Nat} (h : i ≠ resultIndex (s.lane k).inLine) : exec (.returnCheck k i) s = .next s :=
  congrArg Host.Outcome.next (if_pos h)

theorem exec_returnCheck_lookup {f : Frame} {n : PortId} {r : Lookup} (hline : (s.lane k).inLine = pre ++ .lookup f n r :: post)
    (hpre : ∀ a ∈ pre, lookupGen a = none) (i : Nat) : exec (.returnCheck k i) s = .next s := by
  obtain ⟨hidx, hget⟩ := oldest_lookup hline rfl hpre
  by_cases hi : i = pre.length
  · show Host.Outcome.next (endReturnCheck k i s) = _
    subst hi
    unfold endReturnCheck
    simp only [hidx, hget, ne_eq, not_true_eq_false, if_false]
  · exact exec_returnCheck_other (by rwa [hidx])

theorem exec_returnCheck {inner : Frame} {n : PortId} {c : Chan} {octets : Nat} {own : Bool} {r : Lookup}
    (hline : (s.lane k).inLine = pre ++ .checking inner n c octets own r :: post) (hpre : ∀ a ∈ pre, lookupGen a = none) :
    exec (.returnCheck k pre.length) s = .next (if r.verdict = .protect c then stageIn (.lane k) pre.length (.ready (.traffic inner n c octets own)) s
      else dropIn (.lane k) pre.length (s.countChan c .returnMismatch)) := by
  show Host.Outcome.next (endReturnCheck k pre.length s) = _
  obtain ⟨hidx, hget⟩ := oldest_lookup hline rfl hpre
  unfold endReturnCheck
  rw [if_neg (not_not.2 hidx.symm)]
  simp only [hget]

theorem dropIn_lane {x : InItem} (hline : (s.lane k).inLine = pre ++ x :: post) :
    dropIn (.lane k) pre.length s = s.updLane k fun l => { l with inLine := pre ++ post } := by
  show s.updLane k (fun l => { l with inLine := (s.lane k).inLine.eraseIdx pre.length }) = _
  rw [hline, List.eraseIdx_append_of_length_le (Nat.le_refl _), Nat.sub_self]; rfl

theorem stageIn_lane {x y : InItem} (hline : (s.lane k).inLine = pre ++ x :: post) :
    stageIn (.lane k) pre.length y s = s.updLane k fun l => { l with inLine := pre ++ y :: post } := by
  show s.updLane k (fun l => { l with inLine := (s.lane k).inLine.set pre.length y }) = _
  rw [hline, List.set_append_right _ _ (Nat.le_refl _), Nat.sub_self]; rfl

end ends

/-- Settles O18: how lookups begin, the end of a clear frame's, and of a return check. -/
theorem inboundLookupsEnd : Obligations.InboundLookupsEnd := by
  refine ⟨fun s items i => ⟨beginLookups_length s items, _, held_iff items i, fun f n hi hheld => ?_, fun inner n c octets own hi hheld => ?_, fun h => ?_⟩,
    fun k s pre post f n r hline hpre => ⟨Outbound.hitCounted_countHit r s, fun hv => ?_, fun ctr hv => ?_, exec_returnCheck_lookup hline hpre⟩,
    fun k s pre post inner n c octets own r hline hpre => ⟨fun hv => ?_, fun hv => ?_, exec_inboundLookupEnd_checking hline hpre, fun i hi => ?_⟩⟩
  · rw [beginLookups_get, if_neg hheld, hi]; rfl
  · rw [beginLookups_get, if_neg hheld, hi]; rfl
  · rw [beginLookups_get]
    rcases h with hheld | ⟨hclear, hrecovered⟩
    · exact if_pos hheld
    · split
      · rfl
      · cases hi : items[i]? with
        | none => rfl
        | some a =>
          exact congrArg some (lookUp_other (fun f n e => hclear f n (hi.trans (congrArg some e))) fun inner n c octets own e =>
            hrecovered inner n c octets own (hi.trans (congrArg some e)))
  · have hline' : ((countHit r s).lane k).inLine = pre ++ .lookup f n r :: post := by rw [Kept.countHit_lane]; exact hline
    rw [exec_inboundLookupEnd hline hpre, hv]
    exact congrArg Host.Outcome.next (stageIn_lane hline')
  · have hline' : (((countHit r s).countLane k ctr).lane k).inLine = pre ++ .lookup f n r :: post := by
      rw [State.countLane, State.updLane_lane_eq, Kept.countHit_lane]
      exact hline
    have hact : actInbound k pre.length f n r.verdict (countHit r s) = dropIn (.lane k) pre.length ((countHit r s).countLane k ctr) := by
      rcases hv with ⟨hv, rfl⟩ | ⟨hv, rfl⟩ | ⟨⟨c, hv⟩, rfl⟩ | ⟨hv, rfl⟩ <;> rw [hv] <;> rfl
    rw [exec_inboundLookupEnd hline hpre, hact, dropIn_lane hline']
  · rw [exec_returnCheck hline hpre, if_pos hv, stageIn_lane hline]
  · rw [exec_returnCheck hline hpre, if_neg hv, dropIn_lane (s := s.countChan c .returnMismatch) hline]
  · refine exec_returnCheck_other ?_
    rw [hline, resultIndex_eq rfl fun a ha => underLookup_eq_false (hpre a ha)]
    exact hi

/-! ### A verify operation completes (R83, R84) -/

/-- `x` holds the line of `p` that `s` holds, and what a lookup reads. -/
def SameLine (p : Place) (s x : State) : Prop :=
  x.inLine p = s.inLine p ∧ x.active = s.active ∧ x.bankGen = s.bankGen ∧ x.store = s.store

section complete
variable {p : Place} {i : Nat} {s x : State} {w : Work} {f : Frame} {own : Bool} {port : Option PortId}

theorem setInLine_setInLine (l m : List InItem) : (s.setInLine p l).setInLine p m = s.setInLine p m := by
  cases p with
  | lane k =>
    show (s.updLane k fun q => { q with inLine := l }).updLane k (fun q => { q with inLine := m }) = s.updLane k fun q => { q with inLine := m }
    rw [State.updLane_updLane]
  | port n =>
    show (s.updPort n fun q => { q with mgmtLine := l }).updPort n (fun q => { q with mgmtLine := m }) = s.updPort n fun q => { q with mgmtLine := m }
    rw [State.updPort_updPort]

theorem SameLine.dropIn (h : SameLine p s x) : (dropIn p i x).startLookups p = x.setInLine p (beginLookups s ((s.inLine p).eraseIdx i)) := by
  obtain ⟨hline, hactive, hgen, hstore⟩ := h
  have hx := Arrivals.setInLine_eq (s := x) (p := p) ((x.inLine p).eraseIdx i)
  unfold Machine.dropIn
  rw [State.startLookups, Arrivals.inLine_setInLine, if_pos rfl, setInLine_setInLine, hline,
    beginLookups_congr (s := x.setInLine p ((s.inLine p).eraseIdx i)) (t := s) (by rw [← hline, hx]; exact hactive) (by rw [← hline, hx]; exact hgen)
      (by rw [← hline, hx]; exact hstore)]

theorem SameLine.stageIn {item : InItem} (h : SameLine p s x) :
    (stageIn p i item x).startLookups p = x.setInLine p (beginLookups s ((s.inLine p).set i item)) := by
  obtain ⟨hline, hactive, hgen, hstore⟩ := h
  have hx := Arrivals.setInLine_eq (s := x) (p := p) ((x.inLine p).set i item)
  unfold Machine.stageIn
  rw [State.startLookups, Arrivals.inLine_setInLine, if_pos rfl, setInLine_setInLine, hline,
    beginLookups_congr (s := x.setInLine p ((s.inLine p).set i item)) (t := s) (by rw [← hline, hx]; exact hactive) (by rw [← hline, hx]; exact hgen)
      (by rw [← hline, hx]; exact hstore)]

theorem SameLine.updChan (h : SameLine p s x) (c : Chan) (g : Channel → Channel) : SameLine p s (x.updChan c g) :=
  ⟨(Kept.inLine_updChan ..).trans h.1, h.2⟩

theorem SameLine.countChan (h : SameLine p s x) (c : Chan) (ctr : ChanCtr) : SameLine p s (x.countChan c ctr) := h.updChan ..

theorem SameLine.countAtLane (h : SameLine p s x) (ctr : LaneCtr) : SameLine p s (countAtLane p ctr x) := by
  refine ⟨(Kept.inLine_countAtLane ..).trans h.1, ?_⟩
  cases p <;> exact h.2

theorem SameLine.reportChan (h : SameLine p s x) (c : Chan) (ks : KindSet) : SameLine p s (reportChan c ks x) := by
  refine ⟨(Kept.inLine_reportChan ..).trans h.1, ?_⟩
  rw [reportChan_eq]
  exact h.2

theorem SameLine.acceptFrame (h : SameLine p s x) (w : Work) : SameLine p s (acceptFrame w x) := (h.updChan ..).reportChan ..

theorem sameLine_verifyCompleted (p : Place) (w : Work) (s : State) : SameLine p s (verifyCompleted w s) :=
  SameLine.updChan (x := s) ⟨rfl, rfl, rfl, rfl⟩ ..

theorem exec_verifyCompletion_failed (h : (s.inLine p)[i]? = some (.verifying w f own port)) (ho : openFrame w.key w.salt f = none) :
    exec (.verifyCompletion p i) s = .next (settle ((verifyFailed p i w f own (verifyCompleted w s)).startLookups p)) := by
  show Host.Outcome.next (completeVerify p i s) = _
  simp only [completeVerify, h, ho]

theorem exec_verifyCompletion_good {text : List Byte} (h : (s.inLine p)[i]? = some (.verifying w f own port))
    (ho : openFrame w.key w.salt f = some text) :
    exec (.verifyCompletion p i) s = .next (settle ((verifyGood p i w f own port text (verifyCompleted w s)).startLookups p)) := by
  show Host.Outcome.next (completeVerify p i s) = _
  simp only [completeVerify, h, ho]

/-- The slot of a completed verify operation has one frame less in flight (R23). -/
theorem verifyCompleted_slot : ((verifyCompleted w s).chan w.chan).inSlot w.letter =
    { (s.chan w.chan).inSlot w.letter with inFlight := ((s.chan w.chan).inSlot w.letter).inFlight - 1 } := by
  rw [verifyCompleted, State.updChan_chan_eq, Channel.inSlot_setIn, if_pos rfl]

theorem isStale_iff : isStale w (verifyCompleted w s) = true ↔
    ((s.chan w.chan).inSlot w.letter).state = .empty ∨ ((s.chan w.chan).inSlot w.letter).load ≠ w.load := by
  rw [isStale, verifyCompleted_slot]
  simp

end complete

/-- Settles O19: a verification that fails, and one that finds its slot stale. -/
theorem verifyDrops : Obligations.VerifyDrops := by
  intro p i s w f own port h
  have hsame := sameLine_verifyCompleted p w s
  refine ⟨verifyCompleted w s, rfl, countAtLane p .ownFailed (verifyCompleted w s), fun k hk => by rw [hk]; rfl, fun hk => ?_, fun s2 ho hs2 => ?_,
    fun text ho hstale => ?_⟩
  · cases p with
    | lane k => exact absurd rfl (hk k)
    | port n => rfl
  · have hfail : SameLine p s s2 ∧ verifyFailed p i w f own (verifyCompleted w s) =
        if w.chan = 1 ∧ headerTest (headerOf f) = true then stageIn p i (.ready .testFailed) s2 else dropIn p i s2 := by
      cases own with
      | true =>
        rw [if_pos rfl] at hs2
        subst hs2
        exact ⟨hsame.countAtLane _, rfl⟩
      | false =>
        rw [if_neg Bool.false_ne_true, ← reportChan_kindBit] at hs2
        subst hs2
        exact ⟨(hsame.updChan ..).reportChan .., rfl⟩
    obtain ⟨hline, heq⟩ := hfail
    rw [exec_verifyCompletion_failed h ho, heq]
    by_cases htest : w.chan = 1 ∧ headerTest (headerOf f) = true
    · rw [if_pos htest, if_pos htest, hline.stageIn]
    · rw [if_neg htest, if_neg htest, hline.dropIn]
  · rw [exec_verifyCompletion_good h ho, verifyGood, if_pos (isStale_iff.2 hstale)]
    cases own with
    | true => rw [if_pos rfl, (hsame.countAtLane _).dropIn]
    | false => rw [if_neg Bool.false_ne_true, (hsame.countChan ..).dropIn]

/-! ### The final check (R80 to R82, R84, R85, R102, R103) -/

/-- How a frame that passed completion goes on, by its channel (R85). -/
def GoesOn (w : Work) (f : Frame) (own : Bool) (port : Option PortId) (text : List Byte) (check : Bool) (item : InItem) : Prop :=
  w.chan = 0 ∧ item = .ready (.request text (frameSa f) (f.length - 28)) ∨
  w.chan = 1 ∧ headerTest (headerOf f) = true ∧ item = .ready (.test text (f.length - 28) own) ∨
  w.chan = 1 ∧ headerTest (headerOf f) = false ∧ item = .ready (.beacon text (headerOrigin (headerOf f)) (f.length - 28) own) ∨
  2 ≤ w.chan.val ∧ ∃ n, port = some n ∧
    (check = false ∧ item = .ready (.traffic (recoveredFrame f text) n w.chan (f.length - 28) own) ∨
     check = true ∧ item = .recovered (recoveredFrame f text) n w.chan (f.length - 28) own)

section judge
variable {p : Place} {i : Nat} {s x : State} {w : Work} {f : Frame} {own : Bool} {port : Option PortId} {text : List Byte} {item : InItem}

theorem beginHandOn_of_goesOn (h : GoesOn w f own port text (x.chan w.chan).config.returnCheck item) :
    beginHandOn p i w f own port text x = stageIn p i item x := by
  unfold beginHandOn
  rcases h with ⟨hc, rfl⟩ | ⟨hc, ht, rfl⟩ | ⟨hc, ht, rfl⟩ | ⟨hc, n, rfl, h⟩
  · rw [if_pos hc]
  · rw [if_neg (by rw [hc]; decide), if_pos hc, if_pos ht]
  · rw [if_neg (by rw [hc]; decide), if_pos hc, if_neg (by rw [ht]; decide)]
  · have h0 : w.chan ≠ 0 := fun e => by rw [e] at hc; exact absurd hc (by decide)
    have h1 : w.chan ≠ 1 := fun e => by rw [e] at hc; exact absurd hc (by decide)
    rw [if_neg h0, if_neg h1]
    rcases h with ⟨hr, rfl⟩ | ⟨hr, rfl⟩
    · exact if_neg (by rw [hr]; decide)
    · exact if_pos hr

theorem verifyGood_own (h : isStale w s = false) (hown : own = true) : verifyGood p i w f own port text s = beginHandOn p i w f own port text s := by
  rw [verifyGood, if_neg (Bool.eq_false_iff.1 h), if_pos hown]

theorem verifyGood_drops {ctr : ChanCtr} (h : isStale w s = false) (hown : own = false)
    (hctr : windowCtr (windowTest (s.chan w.chan).config.window ((s.chan w.chan).inSlot w.letter).top ((s.chan w.chan).inSlot w.letter).marks w.seq.toNat) =
      some ctr) : verifyGood p i w f own port text s = dropIn p i (s.countChan w.chan ctr) := by
  rw [verifyGood, if_neg (Bool.eq_false_iff.1 h), if_neg (Bool.eq_false_iff.1 hown)]
  simp only [hctr]

theorem verifyGood_passes (h : isStale w s = false) (hown : own = false)
    (hctr : windowCtr (windowTest (s.chan w.chan).config.window ((s.chan w.chan).inSlot w.letter).top ((s.chan w.chan).inSlot w.letter).marks w.seq.toNat) =
      none) : verifyGood p i w f own port text s = beginHandOn p i w f own port text (acceptFrame w s) := by
  rw [verifyGood, if_neg (Bool.eq_false_iff.1 h), if_neg (Bool.eq_false_iff.1 hown)]
  simp only [hctr]

/-- The record of a channel after a frame is recorded in its window and promotes its slot, with the kinds reported (R81, R84, R102). -/
def accepted (w : Work) (s : State) (slot : InSlot) : Channel × KindSet := promote s.time ((s.chan w.chan).setIn w.letter slot) w.letter

/-- A slot with one frame less in flight and the sequence recorded in its window (R23, R81). -/
def recordedSlot (w : Work) (s : State) : InSlot :=
  { (s.chan w.chan).inSlot w.letter with
    inFlight := ((s.chan w.chan).inSlot w.letter).inFlight - 1
    top := (windowUpdate (s.chan w.chan).config.window ((s.chan w.chan).inSlot w.letter).top ((s.chan w.chan).inSlot w.letter).marks w.seq.toNat).1
    marks := (windowUpdate (s.chan w.chan).config.window ((s.chan w.chan).inSlot w.letter).top ((s.chan w.chan).inSlot w.letter).marks w.seq.toNat).2 }

theorem acceptFrame_verifyCompleted (w : Work) (s : State) : acceptFrame w (verifyCompleted w s) =
    reportChan w.chan (accepted w s (recordedSlot w s)).2 (s.updChan w.chan fun _ => (accepted w s (recordedSlot w s)).1) := by
  have hset : ((verifyCompleted w s).chan w.chan).setIn w.letter { ((verifyCompleted w s).chan w.chan).inSlot w.letter with
      top := (windowUpdate ((verifyCompleted w s).chan w.chan).config.window (((verifyCompleted w s).chan w.chan).inSlot w.letter).top
        (((verifyCompleted w s).chan w.chan).inSlot w.letter).marks w.seq.toNat).1
      marks := (windowUpdate ((verifyCompleted w s).chan w.chan).config.window (((verifyCompleted w s).chan w.chan).inSlot w.letter).top
        (((verifyCompleted w s).chan w.chan).inSlot w.letter).marks w.seq.toNat).2 } = (s.chan w.chan).setIn w.letter (recordedSlot w s) := by
    rw [verifyCompleted_slot, verifyCompleted, State.updChan_chan_eq]
    unfold recordedSlot
    cases w.letter <;> rfl
  have heq : acceptFrame w (verifyCompleted w s) = reportChan w.chan (accepted w s (recordedSlot w s)).2
      ((verifyCompleted w s).updChan w.chan fun _ => (accepted w s (recordedSlot w s)).1) := by
    unfold accepted
    rw [← hset]
    rfl
  rw [heq, verifyCompleted, State.updChan_updChan]

theorem promote_stays {now : Time} {ch : Channel} {x : Letter} (h : (ch.inSlot x).state ≠ .pending) : promote now ch x = (ch, 0) := if_neg h

theorem promote_alone {now : Time} {ch : Channel} {x : Letter} (h : (ch.inSlot x).state = .pending) (ho : (ch.inSlot x.other).state ≠ .current) :
    promote now ch x = (ch.setIn x { ch.inSlot x with state := .current, firstVerify := some now }, kindBit .first) :=
  (if_pos h).trans (if_neg ho)

theorem promote_fades {now : Time} {ch : Channel} {x : Letter} (h : (ch.inSlot x).state = .pending) (ho : (ch.inSlot x.other).state = .current) :
    promote now ch x = ((ch.setIn x { ch.inSlot x with state := .current, firstVerify := some now }).setIn x.other
      (fade now ch.config.grace (ch.inSlot x.other)).1, kindBit .first ||| (fade now ch.config.grace (ch.inSlot x.other)).2) :=
  (if_pos h).trans (if_pos ho)

/-- A promotion moves inbound slots alone. -/
theorem promote_frame (now : Time) (ch : Channel) (x : Letter) : (promote now ch x).1.counters = ch.counters ∧
    (promote now ch x).1.config = ch.config ∧ ∀ y, (promote now ch x).1.outSlot y = ch.outSlot y := by
  by_cases h : (ch.inSlot x).state = .pending
  · by_cases ho : (ch.inSlot x.other).state = .current
    · rw [promote_fades h ho]; simp
    · rw [promote_alone h ho]; simp
  · rw [promote_stays h]; simp

theorem reportChan_agent_of_ne_zero (c : Chan) {ks : KindSet} (h : ks ≠ 0) :
    (reportChan c ks s).agent = { s.agent with fifo := addKinds c ks s.agent.fifo } := congrArg State.agent (if_neg h)

/-- What a frame that passed the final check leaves of the state, its line set (R84). -/
theorem accepted_state (l : List InItem) : (acceptFrame w (verifyCompleted w s)).setInLine p l =
    { s.setInLine p l with
      channels := ((acceptFrame w (verifyCompleted w s)).setInLine p l).channels
      agent := ((acceptFrame w (verifyCompleted w s)).setInLine p l).agent } := by
  rw [acceptFrame_verifyCompleted, reportChan_eq]
  cases p <;> rfl

end judge

/-- Settles O20: an own-role frame, a frame that the window drops, and a frame that passes the final check. -/
theorem verifyJudges : Obligations.VerifyJudges := by
  intro p i s w f own port text slot h ho hslot hne hload
  have hsame := sameLine_verifyCompleted p w s
  have hfresh : isStale w (verifyCompleted w s) = false := Bool.eq_false_iff.2 fun hst => by
    rcases isStale_iff.1 hst with he | hl
    · exact hne (hslot ▸ he)
    · exact hl (hslot ▸ hload)
  have hconfig : ((verifyCompleted w s).chan w.chan).config = (s.chan w.chan).config := by
    rw [verifyCompleted, State.updChan_chan_eq, Channel.setIn_config]
  have hwindow : windowTest ((verifyCompleted w s).chan w.chan).config.window (((verifyCompleted w s).chan w.chan).inSlot w.letter).top
      (((verifyCompleted w s).chan w.chan).inSlot w.letter).marks w.seq.toNat =
      windowTest (s.chan w.chan).config.window slot.top slot.marks w.seq.toNat := by
    rw [verifyCompleted_slot, hconfig, hslot]
  refine ⟨GoesOn w f own port text (s.chan w.chan).config.returnCheck, fun item => Iff.rfl, fun item hown hitem => ?_, fun v ctr hown hv hctr => ?_,
    fun item hown hitem hpass => ?_⟩
  · subst hslot
    have hstage : beginHandOn p i w f own port text (verifyCompleted w s) = stageIn p i item (verifyCompleted w s) :=
      beginHandOn_of_goesOn (by rw [hconfig]; exact hitem)
    rw [exec_verifyCompletion_good h ho, verifyGood_own hfresh hown, hstage, hsame.stageIn]
    refine congrArg (fun t => Host.Outcome.next (settle (State.setInLine t p _))) (State.updChan_congr _ rfl)
  · have hwin : windowCtr (windowTest (s.chan w.chan).config.window slot.top slot.marks w.seq.toNat) = some ctr := by
      rw [← hv]
      rcases hctr with ⟨rfl, rfl⟩ | ⟨rfl, rfl⟩ <;> rfl
    rw [exec_verifyCompletion_good h ho, verifyGood_drops hfresh hown (by rw [hwindow]; exact hwin)]
    refine congrArg (fun t => Host.Outcome.next (settle t)) ((hsame.countChan w.chan ctr).dropIn.trans ?_)
    refine congrArg (fun t => State.setInLine t p _) ?_
    rw [State.countChan, verifyCompleted, State.updChan_updChan]
    refine State.updChan_congr _ ?_
    rw [hslot]
  · have hwin : windowCtr (windowTest (s.chan w.chan).config.window slot.top slot.marks w.seq.toNat) = none := by rw [hpass]; rfl
    subst hslot
    have hchan : (acceptFrame w (verifyCompleted w s)).chan w.chan = (accepted w s (recordedSlot w s)).1 := by
      rw [acceptFrame_verifyCompleted, reportChan_chan, State.updChan_chan_eq]
    have hset : ((s.chan w.chan).setIn w.letter (recordedSlot w s)).inSlot w.letter = recordedSlot w s := by simp
    have hother : ((s.chan w.chan).setIn w.letter (recordedSlot w s)).inSlot w.letter.other = (s.chan w.chan).inSlot w.letter.other := by simp
    have hcfg : ((s.chan w.chan).setIn w.letter (recordedSlot w s)).config = (s.chan w.chan).config := by simp
    obtain ⟨hctrs, hconf, hout⟩ := promote_frame s.time ((s.chan w.chan).setIn w.letter (recordedSlot w s)) w.letter
    have hstage : beginHandOn p i w f own port text (acceptFrame w (verifyCompleted w s)) = stageIn p i item (acceptFrame w (verifyCompleted w s)) :=
      beginHandOn_of_goesOn (by rw [hchan, accepted, hconf, hcfg]; exact hitem)
    have hrun : exec (.verifyCompletion p i) s =
        .next (settle ((acceptFrame w (verifyCompleted w s)).setInLine p (beginLookups s ((s.inLine p).set i item)))) := by
      rw [exec_verifyCompletion_good h ho, verifyGood_passes hfresh hown (by rw [hwindow]; exact hwin)]
      exact congrArg (fun t => Host.Outcome.next (settle t)) ((congrArg (State.startLookups · p) hstage).trans (hsame.acceptFrame w).stageIn)
    have hagent : ∀ l, ((acceptFrame w (verifyCompleted w s)).setInLine p l).agent = (acceptFrame w (verifyCompleted w s)).agent := fun l => by
      cases p <;> rfl
    have hfifo : ∀ ks, (accepted w s (recordedSlot w s)).2 = ks → ks ≠ 0 →
        (acceptFrame w (verifyCompleted w s)).agent = { s.agent with fifo := addKinds w.chan ks s.agent.fifo } := fun ks hks hnz => by
      rw [acceptFrame_verifyCompleted, hks, reportChan_agent_of_ne_zero _ hnz]; rfl
    refine ⟨_, recordedSlot w s, hrun, rfl, fun hst => ?_, fun hst => ?_, fun hst hc => ?_, fun hst hc hg => ?_, fun hst hc hg => ?_, ?_, ?_, ?_,
      fun d hd => ?_, accepted_state _⟩
    all_goals try rw [Arrivals.setInLine_chan, hchan]
    · have hkeep : accepted w s (recordedSlot w s) = _ := promote_stays (by rw [hset]; exact hst)
      rw [hagent, acceptFrame_verifyCompleted, hkeep]
      exact ⟨hset, hother, rfl⟩
    · by_cases hc : ((s.chan w.chan).inSlot w.letter.other).state = .current
      · have hfades : accepted w s (recordedSlot w s) = _ := promote_fades (by rw [hset]; exact hst) (by rw [hother]; exact hc)
        rw [hfades]
        simp [hset]
      · have halone : accepted w s (recordedSlot w s) = _ := promote_alone (by rw [hset]; exact hst) (by rw [hother]; exact hc)
        rw [halone]
        simp
    · have halone : accepted w s (recordedSlot w s) = _ := promote_alone (by rw [hset]; exact hst) (by rw [hother]; exact hc)
      refine ⟨?_, (hagent _).trans (hfifo _ (congrArg Prod.snd halone) (kindBit_ne_zero _))⟩
      rw [halone]
      simp
    · have hfades : accepted w s (recordedSlot w s) = _ := promote_fades (by rw [hset]; exact hst) (by rw [hother]; exact hc)
      have hfade : fade s.time (s.chan w.chan).config.grace ((s.chan w.chan).inSlot w.letter.other) = _ := if_neg (by omega)
      rw [hcfg, hother, hfade] at hfades
      refine ⟨?_, (hagent _).trans (hfifo _ ((congrArg Prod.snd hfades).trans (BitVec.or_zero)) (kindBit_ne_zero _))⟩
      rw [hfades]
      simp
    · have hfades : accepted w s (recordedSlot w s) = _ := promote_fades (by rw [hset]; exact hst) (by rw [hother]; exact hc)
      have hfade : fade s.time (s.chan w.chan).config.grace ((s.chan w.chan).inSlot w.letter.other) = _ := if_pos hg
      rw [hcfg, hother, hfade] at hfades
      refine ⟨?_, (hagent _).trans (hfifo _ (congrArg Prod.snd hfades) (by decide))⟩
      rw [hfades]
      simp only [Channel.inSlot_setIn, if_true]
      exact Kept.inCleared_emptyIn _
    · intro x
      exact (hout x).trans (by simp)
    · exact hctrs.trans (by simp)
    · exact hconf.trans hcfg
    · rw [Arrivals.setInLine_chan, acceptFrame_verifyCompleted, reportChan_chan, State.updChan_chan, if_neg hd]

end Sys2Proof.Inbound
end

section
/-! The statement on the hand-on of a resolved frame and the test checker (R77, R85 to R87, R116, R152, R153, R156). -/

namespace Sys2Proof.HandedOn
open Sys2Proof.Machine Sys2Proof.Safety

section handOn
variable {p : Place} {s : State} {h : HandOn} {rest : List InItem}

theorem exec_inboundHandOn (hline : s.inLine p = .ready h :: rest) :
    exec (.inboundHandOn p) s = .next (settle (handOn p h (s.setInLine p rest))) := by
  show Host.Outcome.next (handOnOldest p s) = _
  unfold handOnOldest
  rw [hline]
  show Host.Outcome.next (settle (handOn p h (s.setInLine p ((s.inLine p).eraseIdx 0)))) = _
  rw [hline]; rfl

theorem deliver_taken {n : PortId} {f : PortFrame} (hfits : totalBytes ((s.port n).queue.map (·.bytes)) + f.bytes.length ≤ 131072) :
    (deliver n f s).1 = s.updPort n fun p => { p with queue := p.queue ++ [f] } := congrArg Prod.fst (if_neg (Nat.not_lt.2 hfits))

theorem deliver_lost {n : PortId} {f : PortFrame} (hfull : 131072 < totalBytes ((s.port n).queue.map (·.bytes)) + f.bytes.length) :
    (deliver n f s).1 = s.countPort n .deliveryOverflow := congrArg Prod.fst (if_pos hfull)

theorem setInLine_lane (k : LaneId) (s : State) (l : List InItem) : s.setInLine (.lane k) l = s.updLane k fun q => { q with inLine := l } := rfl

theorem handOn_test_peer (k : LaneId) (payload : List Byte) (octets : Nat) (s : State) : handOn (.lane k) (.test payload octets false) s =
    judgeTest k (payloadGood payload) ((s.countChan 1 .verifiedFrames).countChan 1 .verifiedOctets octets) := by rfl

theorem handOn_test_own (k : LaneId) (payload : List Byte) (octets : Nat) (s : State) : handOn (.lane k) (.test payload octets true) s =
    judgeTest k (payloadGood payload) (s.countLane k .ownVerified) := by rfl

theorem handOn_testFailed (k : LaneId) (s : State) : handOn (.lane k) .testFailed s = judgeTest k false s := by rfl

end handOn

/-! ### The pattern relation of a payload (R152) -/

/-- Bit `i` of a payload, first bit of a byte most significant. -/
def payloadBit (payload : List Byte) (i : Nat) : Bool := (payload.getD (i / 8) 0).getLsbD (7 - i % 8)

theorem flatMap_byteBits (payload : List Byte) : payload.flatMap byteBits = (List.range (8 * payload.length)).map (payloadBit payload) := by
  induction payload with
  | nil => rfl
  | cons b rest ih =>
    have hlen : 8 * (b :: rest).length = 8 + 8 * rest.length := by simp; omega
    have hfirst : (List.range 8).map (payloadBit (b :: rest)) = byteBits b := rfl
    have hrest : ((List.range (8 * rest.length)).map (8 + ·)).map (payloadBit (b :: rest)) = (List.range (8 * rest.length)).map (payloadBit rest) := by
      rw [List.map_map]
      refine List.map_congr_left fun i _ => ?_
      have hdiv : (8 + i) / 8 = i / 8 + 1 := by omega
      have hmod : (8 + i) % 8 = i % 8 := by omega
      simp only [Function.comp, payloadBit, hdiv, hmod, List.getD_cons_succ]
    rw [List.flatMap_cons, ih, hlen, List.range_add, List.map_append, hfirst, hrest]

/-- The relation over the bits from place `seen` on, behind a register that holds the bits before it. -/
theorem relationHolds_iff (bit : Nat → Bool) (n seen : Nat) (r : BitVec 23) (hr : ∀ j, j < 23 → j < seen → r.getLsbD j = bit (seen - 1 - j)) :
    relationHolds ((List.range' seen n).map bit) seen r = true ↔
      ∀ i, seen ≤ i → i < seen + n → 23 ≤ i → bit i = (bit (i - 23) != bit (i - 18)) := by
  induction n generalizing seen r with
  | zero => exact ⟨fun _ i h1 h2 => absurd h2 (by omega), fun _ => rfl⟩
  | succ n ih =>
    have hnext : ∀ j, j < 23 → j < seen + 1 → (pushBit r (bit seen)).getLsbD j = bit (seen + 1 - 1 - j) := fun j hj hlt => by
      cases j with
      | zero => exact LaneUnits.pushBit_zero _ _
      | succ j =>
        rw [LaneUnits.pushBit_succ _ _ (by omega), hr j (by omega) (by omega)]
        congr 1
        omega
    have hhead : (decide (seen < 23) || bit seen == patternBit r) = true ↔ (23 ≤ seen → bit seen = (bit (seen - 23) != bit (seen - 18))) := by
      by_cases hs : seen < 23
      · simp [hs]
      · have h22 : r.getLsbD 22 = bit (seen - 23) := by
          rw [hr 22 (by omega) (by omega)]
          congr 1
        have h17 : r.getLsbD 17 = bit (seen - 18) := by
          rw [hr 17 (by omega) (by omega)]
          congr 1
        have hle : 23 ≤ seen := by omega
        rw [patternBit, h22, h17]
        simp [hs, hle]
    rw [List.range'_succ, List.map_cons]
    show ((decide (seen < 23) || bit seen == patternBit r) && relationHolds ((List.range' (seen + 1) n).map bit) (seen + 1) (pushBit r (bit seen))) = true ↔ _
    rw [Bool.and_eq_true, hhead, ih (seen + 1) _ hnext]
    constructor
    · rintro ⟨hfirst, hlater⟩ i hle hlt h23
      by_cases hi : i = seen
      · subst hi
        exact hfirst h23
      · exact hlater i (by omega) (by omega) h23
    · exact fun h => ⟨h seen (by omega) (by omega), fun i hle hlt => h i (by omega) (by omega)⟩

/-- A payload is good when every bit from the 23rd on is the exclusive-or of the bits 23 and 18 places before it (R152). -/
theorem payloadGood_iff (payload : List Byte) : payloadGood payload = true ↔ ∀ i, 23 ≤ i → i < 8 * payload.length →
    payloadBit payload i = (payloadBit payload (i - 23) != payloadBit payload (i - 18)) := by
  unfold payloadGood
  rw [flatMap_byteBits, List.range_eq_range', relationHolds_iff _ _ 0 0 fun j _ h => absurd h (by omega), Nat.zero_add]
  exact ⟨fun h i h23 hlt => h i (by omega) hlt h23, fun h i _ hlt h23 => h i h23 hlt⟩

/-! ### The test checker (R153) -/

section checker
variable {k : LaneId} {good : Bool} {s : State}

theorem badCount_eq (l : List Bool) : badCount l = l.count false := by
  rw [badCount, List.count_eq_length_filter]

/-- The history holds the last 16 judgements. -/
theorem pushJudged_eq (l : List Bool) (good : Bool) : pushJudged l good = (l ++ [good]).drop (l.length + 1 - 16) := by
  unfold pushJudged
  by_cases h : l.length < 16
  · have hzero : l.length + 1 - 16 = 0 := by omega
    rw [if_pos h, hzero]; rfl
  · have hone : l.length + 1 - 16 = l.length - 15 := by omega
    rw [if_neg h, hone, List.drop_append_of_le_length (by omega)]

theorem countLane_lane (ctr : LaneCtr) : (s.countLane k ctr).lane k = (s.lane k).count ctr := State.updLane_lane_eq ..

/-- What the checker does, by its lock and its run (R153). -/
theorem judgeTest_eq (k : LaneId) (good : Bool) (s : State) : judgeTest k good s =
    let s1 := s.countLane k (if good then .testGood else .testBad)
    if (s.lane k).locked then
      if 4 ≤ badCount (pushJudged (s.lane k).judged good) then reportDevice .test (s1.updLane k fun l => { l with locked := false, goodRun := 0, judged := [] })
      else s1.updLane k fun l => { l with judged := pushJudged (s.lane k).judged good }
    else if good then
      if (s.lane k).goodRun < 7 then s1.updLane k fun l => { l with goodRun := l.goodRun + 1 }
      else reportDevice .test (s1.updLane k fun l => { l with locked := true, goodRun := 8, judged := [] })
    else s1.updLane k fun l => { l with goodRun := 0 } := by
  unfold judgeTest
  simp only [countLane_lane]
  rfl

end checker

/-- Settles O21: the frames that enter a delivery queue, a request, the payload's relation, the test frames and the checker. -/
theorem inboundFrameHandedOn : Obligations.InboundFrameHandedOn := by
  refine ⟨fun k s h rest n bytes s1 hline hkind => ?_, fun p s msg sa octets rest hline => ?_, fun payload bit hbit => ?_, fun k s payload octets rest hline => ?_,
    fun k s payload octets rest hline => ?_, fun k s rest hline => ?_, fun k good s => ?_⟩
  · have hhand : handOn (.lane k) h (s.setInLine (.lane k) rest) = (deliver n { bytes, final := false } s1).1 ∧ s1.ports = s.ports := by
      rcases hkind with ⟨c, octets, rfl, rfl⟩ | ⟨c, octets, rfl, rfl⟩ | ⟨rfl, rfl⟩ | ⟨rfl, rfl⟩ <;> exact ⟨rfl, rfl⟩
    obtain ⟨heq, hports⟩ := hhand
    have hport : s1.port n = s.port n := congrArg (fun v : Vector Port 4 => v[n]) hports
    rw [exec_inboundHandOn (p := .lane k) hline, heq]
    exact ⟨fun hfits => congrArg (fun t => Host.Outcome.next (settle t)) (deliver_taken (by rw [hport]; exact hfits)),
      fun hfull => congrArg (fun t => Host.Outcome.next (settle t)) (deliver_lost (by rw [hport]; exact hfull))⟩
  · refine ⟨_, exec_inboundHandOn hline, ?_⟩
    exact Arrivals.takeRequest_taken ..
  · have hsame : ∀ i, bit i = payloadBit payload i := hbit
    rw [payloadGood_iff]
    simp only [hsame]
  · rw [exec_inboundHandOn (p := .lane k) hline, handOn_test_peer, setInLine_lane]
  · rw [exec_inboundHandOn (p := .lane k) hline, handOn_test_own, setInLine_lane]
  · rw [exec_inboundHandOn (p := .lane k) hline, handOn_testFailed, setInLine_lane]
  · refine ⟨_, pushJudged (s.lane k).judged good, rfl, pushJudged_eq _ _, fun hl hg => ?_, fun hl hg hrun => ?_, fun hl hg hrun => ?_, fun hl hbad => ?_,
      fun hl hbad => ?_⟩
    all_goals rw [judgeTest_eq]; simp only [hl, badCount_eq]
    · subst hg; rfl
    · subst hg; simp [hrun]
    · subst hg; simp [Nat.not_lt.2 hrun]; rfl
    · rw [if_pos trivial, if_neg (Nat.not_le.2 hbad)]
    · rw [if_pos trivial, if_pos hbad]; rfl

end Sys2Proof.HandedOn
end

section
/-! A verified beacon, stage by stage: the lane monitor, the loop control, the peer report, the controller (R126 to R128, R131, R136, R137, R148). -/

namespace Sys2Proof.BeaconStages
open Sys2Proof.Machine Sys2Proof.Safety

/-! ### What every stage leaves (R126) -/

/-- From `s` to `t` a beacon of lane `k` moved no more than the controller, the device notices and the lanes, of which the others lost at most a
transmission. -/
def Staged (k : LaneId) (s t : State) : Prop :=
  t.prot = { s.prot with
    farFail := t.prot.farFail, selection := t.prot.selection, classes := t.prot.classes, wtrTimer := t.prot.wtrTimer, steering := t.prot.steering
    echo := t.prot.echo, candidate := t.prot.candidate, adoptCount := t.prot.adoptCount } ∧
  (∃ d, t.agent = { s.agent with devices := s.agent.devices ||| d }) ∧ t = { s with lanes := t.lanes, prot := t.prot, agent := t.agent } ∧
  ∀ j, j ≠ k → OnlyCut (s.lane j) (t.lane j)

/-- What a beacon may move of the record of its own lane. -/
def LaneStaged (l m : Lane) : Prop :=
  m = { l with
    state := m.state, peerRun := m.peerRun, continuity := m.continuity, peerReport := m.peerReport, loopMode := m.loopMode, loopRun := m.loopRun
    returnQueue := m.returnQueue, tx := m.tx, counters := m.counters }

/-- The fields of the controller that the arbiter alone moves. -/
def arbitration (s : State) : Option PortId × Vector ReqClass 4 × Option Timer := (s.prot.selection, s.prot.classes, s.prot.wtrTimer)

/-- The fields of the controller that the arbiter leaves. -/
def guidance (s : State) : Option PortId × Option PortId × Option PortId × Nat :=
  (s.prot.steering, s.prot.echo, s.prot.candidate, s.prot.adoptCount)

section staged
variable {k : LaneId} {s t u : State}

theorem Staged.refl (k : LaneId) (s : State) : Staged k s s := ⟨rfl, ⟨0, by simp⟩, rfl, fun _ _ => OnlyCut.refl _⟩

theorem Staged.trans (h1 : Staged k s t) (h2 : Staged k t u) : Staged k s u := by
  obtain ⟨hp1, ⟨d, hd⟩, hf1, hl1⟩ := h1
  obtain ⟨hp2, ⟨e, he⟩, hf2, hl2⟩ := h2
  refine ⟨?_, ⟨d ||| e, ?_⟩, ?_, fun j hj => (hl1 j hj).trans (hl2 j hj)⟩
  · rw [hp2, hp1]
  · rw [he, hd, BitVec.or_assoc]
  · rw [hf2, hf1]

theorem Staged.of_switched (h : Switched s t) : Staged k s t := by
  obtain ⟨hcut, hprot, hagent, hframe⟩ := h
  exact ⟨by rw [hprot], hagent, hframe, fun j _ => hcut j⟩

theorem Staged.updLane (k : LaneId) (f : Lane → Lane) (s : State) : Staged k s (s.updLane k f) := by
  refine ⟨rfl, ⟨0, by simp⟩, rfl, fun j hj => ?_⟩
  rw [State.updLane_lane, if_neg hj]
  exact OnlyCut.refl _

theorem Staged.devices (h : Staged k s t) {i : Nat} (hi : s.agent.devices.getLsbD i = true) : t.agent.devices.getLsbD i = true := by
  obtain ⟨-, ⟨d, hd⟩, -⟩ := h
  rw [hd]
  simp [hi]

theorem Staged.role (h : Staged k s t) : t.role = s.role := by
  obtain ⟨-, -, hframe, -⟩ := h
  rw [hframe]

theorem Staged.time (h : Staged k s t) : t.time = s.time := by
  obtain ⟨-, -, hframe, -⟩ := h
  rw [hframe]

theorem LaneStaged.trans {l m n : Lane} (h1 : LaneStaged l m) (h2 : LaneStaged m n) : LaneStaged l n := by
  unfold LaneStaged at *
  rw [h2, h1]

theorem LaneStaged.of_onlyCut {l m : Lane} (h : OnlyCut l m) : LaneStaged l m := by
  obtain ⟨heq, -⟩ := h
  unfold LaneStaged
  rw [heq]

theorem onlyCut_continuity {l m : Lane} (h : OnlyCut l m) : m.continuity = l.continuity := by rw [h.1]
theorem onlyCut_peerRun {l m : Lane} (h : OnlyCut l m) : m.peerRun = l.peerRun := by rw [h.1]
theorem onlyCut_state {l m : Lane} (h : OnlyCut l m) : m.state = l.state := by rw [h.1]
theorem onlyCut_peerReport {l m : Lane} (h : OnlyCut l m) : m.peerReport = l.peerReport := by rw [h.1]
theorem onlyCut_loopMode {l m : Lane} (h : OnlyCut l m) : m.loopMode = l.loopMode := by rw [h.1]
theorem onlyCut_loopRun {l m : Lane} (h : OnlyCut l m) : m.loopRun = l.loopRun := by rw [h.1]
theorem onlyCut_returnQueue {l m : Lane} (h : OnlyCut l m) : m.returnQueue = l.returnQueue := by rw [h.1]

theorem Lane.count_zero (l : Lane) (c : LaneCtr) : l.count c 0 = l := by
  have hsame : addCounter l.counters[laneCtrIdx c] 0 = l.counters[laneCtrIdx c] := by
    unfold addCounter
    have hlt := (l.counters[laneCtrIdx c]).isLt
    rw [Nat.add_zero, if_pos (by omega), BitVec.ofNat_toNat]
    exact BitVec.setWidth_eq _
  unfold Lane.count bumpAt
  rw [hsame]
  simp

theorem addCounter_zero (c : Counter) : addCounter c 0 = c := by
  unfold addCounter
  have hlt := c.isLt
  rw [Nat.add_zero, if_pos (by omega), BitVec.ofNat_toNat]
  exact BitVec.setWidth_eq _

/-! ### The arbiter along the way -/

theorem runArbiter_guidance (s : State) : guidance (runArbiter s) = guidance s := by simp [guidance]

theorem runArbiter_arbitration (h : s.role = .campus) : arbitration (runArbiter s) = arbitration s := by rw [Switching.runArbiter_campus h]

theorem setSteering_arbitration (p : Option PortId) (s : State) : arbitration (setSteering p s) = arbitration s := by
  unfold arbitration
  rw [setSteering_prot]

theorem adopt_arbitration (v : Option PortId) (s : State) : arbitration (adopt v s) = arbitration s := by
  unfold arbitration
  rw [adopt_prot]

theorem standbyLost_arbitration (s : State) : arbitration (standbyLost s) = arbitration s := by
  unfold standbyLost
  cases s.role with
  | rack => exact setSteering_arbitration none s
  | campus =>
    dsimp only
    split
    · rfl
    · exact adopt_arbitration none (clearAdoption s)

/-- A lane's state that does not change, or changes at a CAMPUS part, leaves the arbiter's results. -/
theorem setLaneState_arbitration {st : LaneState} (h : s.role = .campus ∨ (s.lane k).state = st) : arbitration (setLaneState k st s) = arbitration s := by
  by_cases hst : (s.lane k).state = st
  · rw [LaneUnits.setLaneState_same hst]
  · have hrole := h.resolve_right hst
    unfold setLaneState
    rw [if_neg hst]
    dsimp only
    split
    · have hlost : (standbyLost (reportDevice .lane (s.updLane k fun l => { l with state := st }))).role = .campus := by
        rw [(standbyLost_switched _).role]
        exact hrole
      rw [runArbiter_arbitration hlost, standbyLost_arbitration]; rfl
    · exact runArbiter_arbitration (s := reportDevice .lane (s.updLane k fun l => { l with state := st })) hrole

/-- A lane that becomes UP, and a working lane, leave steering, echo and adoption run. -/
theorem setLaneState_guidance {st : LaneState} (h : k ≠ 4 ∨ st = .up) : guidance (setLaneState k st s) = guidance s := by
  unfold setLaneState
  split
  · rfl
  · dsimp only
    rw [runArbiter_guidance, if_neg]
    · rfl
    · rintro ⟨hk, hne⟩
      exact h.elim (fun hk' => hk' hk) hne

end staged

/-! ### The lane monitor (R127, R128) -/

/-- The record of a lane whose monitor took a beacon, before its state is judged. -/
def monitored (s : State) (own : Bool) (l : Lane) : Lane :=
  { l with continuity := some { start := s.time, len := 350 * s.prot.interval }, peerRun := if own then 0 else min 3 (l.peerRun + 1) }

/-- The state that the monitor gives a lane. -/
def monitorState (own : Bool) (l : Lane) : LaneState :=
  if own then .looped else if min 3 (l.peerRun + 1) = 3 then .up else l.state

section monitor
variable {k : LaneId} {s : State}

theorem monitorBeacon_own (k : LaneId) (s : State) : monitorBeacon k true s = setLaneState k .looped (s.updLane k (monitored s true)) := by
  have hmerge : (restartContinuity k s).updLane k (fun l => { l with peerRun := 0 }) = s.updLane k (monitored s true) := State.updLane_updLane ..
  rw [← hmerge]; rfl

theorem monitorBeacon_peer (k : LaneId) (s : State) : monitorBeacon k false s =
    if min 3 ((s.lane k).peerRun + 1) = 3 then setLaneState k .up (s.updLane k (monitored s false)) else s.updLane k (monitored s false) := by
  have hmerge : (restartContinuity k s).updLane k (fun l => { l with peerRun := min 3 (l.peerRun + 1) }) = s.updLane k (monitored s false) :=
    State.updLane_updLane ..
  have hrun : ((s.updLane k (monitored s false)).lane k).peerRun = min 3 ((s.lane k).peerRun + 1) := by rw [State.updLane_lane_eq]; rfl
  rw [← hrun, ← hmerge]; rfl

/-- In every case the monitor sets the lane's state to one value. -/
theorem monitorBeacon_eq (k : LaneId) (own : Bool) (s : State) :
    monitorBeacon k own s = setLaneState k (monitorState own (s.lane k)) (s.updLane k (monitored s own)) := by
  cases own with
  | true => exact monitorBeacon_own k s
  | false =>
    rw [monitorBeacon_peer]
    by_cases h : min 3 ((s.lane k).peerRun + 1) = 3
    · rw [if_pos h, monitorState, if_neg Bool.false_ne_true, if_pos h]
    · rw [if_neg h, monitorState, if_neg Bool.false_ne_true, if_neg h, LaneUnits.setLaneState_same (by rw [State.updLane_lane_eq]; rfl)]

theorem monitorTook (k : LaneId) (own : Bool) (s : State) : MonitorTook k own s (monitorBeacon k own s) := by
  have hstate : ∀ own, ((s.updLane k (monitored s own)).lane k).state = (s.lane k).state := fun own => by rw [State.updLane_lane_eq]; rfl
  refine ⟨s.updLane k (monitored s own), rfl, fun ho hst => ?_, fun ho hst => ?_, fun ho h => ?_, fun ho hrun hst => ?_⟩
  · subst ho
    rw [monitorBeacon_own, LaneUnits.setLaneState_same (by rw [hstate, hst])]
  · subst ho
    rw [monitorBeacon_own]
    exact Switching.laneMoved_setLaneState (by decide) (by rw [hstate]; exact hst)
  · subst ho
    rw [monitorBeacon_peer]
    by_cases h3 : min 3 ((s.lane k).peerRun + 1) = 3
    · rw [if_pos h3, LaneUnits.setLaneState_same (by rw [hstate]; exact h.resolve_left (by omega))]
    · rw [if_neg h3]
  · subst ho
    rw [monitorBeacon_peer, if_pos (by omega)]
    have hset : setLaneState k .up (s.updLane k (monitored s false)) =
        runArbiter (reportDevice .lane ((s.updLane k (monitored s false)).updLane k fun l => { l with state := .up })) := by
      unfold setLaneState
      rw [if_neg (by rw [hstate]; exact hst)]
      dsimp only
      rw [if_neg fun h => h.2 rfl]
    rw [hset]
    exact Switching.arbiterJudged _

theorem monitorBeacon_staged (k : LaneId) (own : Bool) (s : State) : Staged k s (monitorBeacon k own s) := by
  rw [monitorBeacon_eq]
  exact (Staged.updLane ..).trans ((Staged.updLane ..).trans (.of_switched (setLaneState_switched ..)))

theorem monitorBeacon_lane (k : LaneId) (own : Bool) (s : State) :
    OnlyCut { monitored s own (s.lane k) with state := monitorState own (s.lane k) } ((monitorBeacon k own s).lane k) := by
  rw [monitorBeacon_eq]
  have h := (setLaneState_switched k (monitorState own (s.lane k)) (s.updLane k (monitored s own))).1 k
  rwa [State.updLane_lane_eq, State.updLane_lane_eq] at h

/-- The far-fail set is the controller's alone. -/
theorem monitorBeacon_farFail (k : LaneId) (own : Bool) (s : State) : (monitorBeacon k own s).prot.farFail = s.prot.farFail := by
  rw [monitorBeacon_eq, (setLaneState_switched ..).farFail]; rfl

theorem monitorBeacon_device (own : Bool) (h : monitorState own (s.lane k) ≠ (s.lane k).state) : (monitorBeacon k own s).agent.devices.getLsbD 0 = true := by
  rw [monitorBeacon_eq]
  refine Switching.setLaneState_device ?_
  rw [State.updLane_lane_eq]
  exact Ne.symm h

theorem monitorBeacon_arbitration (own : Bool) (h : s.role = .campus ∨ monitorState own (s.lane k) = (s.lane k).state) :
    arbitration (monitorBeacon k own s) = arbitration s := by
  rw [monitorBeacon_eq, setLaneState_arbitration]
  · rfl
  · rw [State.updLane_lane_eq]
    exact h.imp id Eq.symm

theorem monitorBeacon_guidance (own : Bool) (h : k ≠ 4 ∨ own = false) : guidance (monitorBeacon k own s) = guidance s := by
  by_cases hk : k = 4
  · have hown := h.resolve_left (not_not.2 hk)
    subst hown
    rw [monitorBeacon_peer]
    split
    · exact setLaneState_guidance (.inr rfl)
    · rfl
  · rw [monitorBeacon_eq]
    exact setLaneState_guidance (.inl hk)

end monitor

/-! ### The loop control (R145, R148) -/

/-- Runs are not tracked: in CIPHER loopback, while the own loop field is REQUEST, with auto-accept off, at an own-role beacon and at NONE (R148). -/
def Untracked (l : Lane) (own : Bool) (f : LoopField) : Prop :=
  l.loopMode = .cipher ∨ l.loopField = .request ∨ l.autoAccept = false ∨ own = true ∨ f = .none

section loop
variable {k : LaneId} {own : Bool} {f : LoopField} {s : State}

theorem nextLoopRun_start {now start : Time} {run : Option (LoopField × Time)}
    (h : run = some (f, start) ∨ (∀ u, run ≠ some (f, u)) ∧ start = now) : nextLoopRun now run f = some (f, start) := by
  rcases h with rfl | ⟨hno, rfl⟩
  · exact if_pos rfl
  · unfold nextLoopRun
    cases run with
    | none => rfl
    | some r => exact if_neg fun e => hno r.2 (by rw [← e])

theorem nextLoopRun_exists (now : Time) (run : Option (LoopField × Time)) (f : LoopField) : ∃ start, nextLoopRun now run f = some (f, start) := by
  unfold nextLoopRun
  cases run with
  | none => exact ⟨now, rfl⟩
  | some r =>
    by_cases h : r.1 = f
    · exact ⟨r.2, by simp [h]⟩
    · exact ⟨now, by simp [h]⟩

/-- The record of a lane with its run moved. -/
def withRun (run : Option (LoopField × Time)) (l : Lane) : Lane := { l with loopRun := run }

theorem judgeLoop_untracked (h : Untracked (s.lane k) own f) : judgeLoop k own f s = s.updLane k (withRun none) := if_pos h

theorem judgeLoop_incomplete (h : ¬ Untracked (s.lane k) own f)
    (hrun : runComplete s.time (s.lane k).persistence (nextLoopRun s.time (s.lane k).loopRun f) = false ∨ f = .request ∧ (s.lane k).loopMode ≠ .none ∨
      f = .release ∧ (s.lane k).loopMode ≠ .line) :
    judgeLoop k own f s = s.updLane k (withRun (nextLoopRun s.time (s.lane k).loopRun f)) := by
  refine (if_neg h).trans ?_
  rcases hrun with hrun | ⟨hf, hm⟩ | ⟨hf, hm⟩
  · exact if_neg (Bool.eq_false_iff.1 hrun)
  all_goals
    split
    · split
      · simp_all
      · simp_all
      · rfl
    · rfl

theorem judgeLoop_begins (h : ¬ Untracked (s.lane k) own f)
    (hrun : runComplete s.time (s.lane k).persistence (nextLoopRun s.time (s.lane k).loopRun f) = true) (hf : f = .request)
    (hm : (s.lane k).loopMode = .none) :
    judgeLoop k own f s = reportDevice .loop (setLoopMode k .line (s.updLane k (withRun (nextLoopRun s.time (s.lane k).loopRun f)))) := by
  refine (if_neg h).trans ?_
  rw [if_pos hrun, hm, hf]
  rfl

theorem judgeLoop_ends (h : ¬ Untracked (s.lane k) own f)
    (hrun : runComplete s.time (s.lane k).persistence (nextLoopRun s.time (s.lane k).loopRun f) = true) (hf : f = .release)
    (hm : (s.lane k).loopMode = .line) :
    judgeLoop k own f s = reportDevice .loop (setLoopMode k .none (s.updLane k fun l =>
      { (withRun (nextLoopRun s.time (s.lane k).loopRun f) l).count .loopOverrun l.returnQueue.length with returnQueue := [] })) := by
  refine (if_neg h).trans ?_
  rw [if_pos hrun, hm, hf]
  show endLine k (s.updLane k (withRun _)) = _
  unfold endLine
  rw [State.updLane_updLane]
  rfl

/-- What the loop control does with a beacon: the run moves alone, LINE loopback begins, or it ends (R148). -/
theorem judgeLoop_cases (k : LaneId) (own : Bool) (f : LoopField) (s : State) :
    (∃ run, judgeLoop k own f s = s.updLane k (withRun run)) ∨
    (∃ run, (s.lane k).loopMode = .none ∧ judgeLoop k own f s = reportDevice .loop (setLoopMode k .line (s.updLane k (withRun run)))) ∨
    ∃ run, (s.lane k).loopMode = .line ∧ judgeLoop k own f s = reportDevice .loop (setLoopMode k .none (s.updLane k fun l =>
      { (withRun run l).count .loopOverrun l.returnQueue.length with returnQueue := [] })) := by
  by_cases h : Untracked (s.lane k) own f
  · exact .inl ⟨_, judgeLoop_untracked h⟩
  · by_cases hrun : runComplete s.time (s.lane k).persistence (nextLoopRun s.time (s.lane k).loopRun f) = true
    · cases hf : f with
      | none => exact absurd (.inr (.inr (.inr (.inr hf)))) h
      | request =>
        by_cases hm : (s.lane k).loopMode = .none
        · exact .inr (.inl ⟨_, hm, hf ▸ judgeLoop_begins h hrun hf hm⟩)
        · exact .inl ⟨_, hf ▸ judgeLoop_incomplete h (.inr (.inl ⟨hf, hm⟩))⟩
      | release =>
        by_cases hm : (s.lane k).loopMode = .line
        · exact .inr (.inr ⟨_, hm, hf ▸ judgeLoop_ends h hrun hf hm⟩)
        · exact .inl ⟨_, hf ▸ judgeLoop_incomplete h (.inr (.inr ⟨hf, hm⟩))⟩
    · exact .inl ⟨_, judgeLoop_incomplete h (.inl (Bool.eq_false_iff.2 hrun))⟩

theorem setLoopMode_standby (m : LoopMode) (s : State) :
    setLoopMode 4 m s = runArbiter (s.updLane 4 fun l => { l with loopMode := m }) := rfl

theorem setLoopMode_working (hk : k ≠ 4) (m : LoopMode) (s : State) : setLoopMode k m s = s.updLane k fun l => { l with loopMode := m } := if_neg hk

theorem setLoopMode_lane (k : LaneId) (m : LoopMode) (g : Lane → Lane) (s : State) :
    OnlyCut { g (s.lane k) with loopMode := m } ((setLoopMode k m (s.updLane k g)).lane k) := by
  have h := (setLoopMode_switched k m (s.updLane k g)).1 k
  rwa [State.updLane_lane_eq, State.updLane_lane_eq] at h

theorem setLoopMode_staged (k : LaneId) (m : LoopMode) (g : Lane → Lane) (s : State) : Staged k s (reportDevice .loop (setLoopMode k m (s.updLane k g))) :=
  (Staged.updLane ..).trans ((Staged.updLane ..).trans ((Staged.of_switched (setLoopMode_switched ..)).trans (.of_switched (reportDevice_switched ..))))

theorem judgeLoop_staged (k : LaneId) (own : Bool) (f : LoopField) (s : State) : Staged k s (judgeLoop k own f s) := by
  rcases judgeLoop_cases k own f s with ⟨run, h⟩ | ⟨run, -, h⟩ | ⟨run, -, h⟩ <;> rw [h]
  · exact Staged.updLane ..
  · exact setLoopMode_staged ..
  · exact setLoopMode_staged ..

/-- Of its lane the loop control moves run, mode, return queue and overrun counter, and a transmission that the arbiter cut. -/
theorem judgeLoop_lane (k : LaneId) (own : Bool) (f : LoopField) (s : State) : ∃ (n : Nat) (run : Option (LoopField × Time)) (m : LoopMode) (q : List Frame),
    OnlyCut { (s.lane k).count .loopOverrun n with loopRun := run, loopMode := m, returnQueue := q } ((judgeLoop k own f s).lane k) := by
  rcases judgeLoop_cases k own f s with ⟨run, h⟩ | ⟨run, -, h⟩ | ⟨run, -, h⟩ <;> rw [h]
  · refine ⟨0, run, (s.lane k).loopMode, (s.lane k).returnQueue, ?_⟩
    rw [State.updLane_lane_eq, Lane.count_zero]
    exact OnlyCut.refl _
  · refine ⟨0, run, .line, (s.lane k).returnQueue, ?_⟩
    rw [Lane.count_zero]
    exact setLoopMode_lane k .line (withRun run) s
  · exact ⟨_, run, .none, [], setLoopMode_lane k .none _ s⟩

theorem setLoopMode_guidance (k : LaneId) (m : LoopMode) (g : Lane → Lane) (s : State) :
    guidance (reportDevice .loop (setLoopMode k m (s.updLane k g))) = guidance s := by
  show guidance (setLoopMode k m (s.updLane k g)) = guidance s
  unfold setLoopMode
  dsimp only
  split
  · exact runArbiter_guidance _
  · rfl

theorem judgeLoop_guidance (k : LaneId) (own : Bool) (f : LoopField) (s : State) : guidance (judgeLoop k own f s) = guidance s := by
  rcases judgeLoop_cases k own f s with ⟨run, h⟩ | ⟨run, -, h⟩ | ⟨run, -, h⟩ <;> rw [h]
  · rfl
  · exact setLoopMode_guidance ..
  · exact setLoopMode_guidance ..

theorem setLoopMode_arbitration (m : LoopMode) (g : Lane → Lane) (h : s.role = .campus ∨ k ≠ 4) :
    arbitration (reportDevice .loop (setLoopMode k m (s.updLane k g))) = arbitration s := by
  show arbitration (setLoopMode k m (s.updLane k g)) = arbitration s
  unfold setLoopMode
  dsimp only
  split
  · next hk => exact runArbiter_arbitration (s := (s.updLane k g).updLane k _) (h.resolve_right (not_not.2 hk))
  · rfl

/-- A loop mode that does not change, or is not L4's, leaves the arbiter's results; so does any at a CAMPUS part. -/
theorem judgeLoop_arbitration (h : s.role = .campus ∨ (k = 4 → ((judgeLoop k own f s).lane k).loopMode = (s.lane k).loopMode)) :
    arbitration (judgeLoop k own f s) = arbitration s := by
  have hmode : ∀ {g : Lane → Lane} {m : LoopMode}, judgeLoop k own f s = reportDevice .loop (setLoopMode k m (s.updLane k g)) → m ≠ (s.lane k).loopMode →
      s.role = .campus ∨ k ≠ 4 := fun {g m} heq hne => h.imp id fun hkeep hk => hne <| by
    rw [← hkeep hk, heq]
    exact (congrArg Lane.loopMode (setLoopMode_lane k m g s).1).symm
  rcases judgeLoop_cases k own f s with ⟨run, heq⟩ | ⟨run, hm, heq⟩ | ⟨run, hm, heq⟩
  · rw [heq]; rfl
  · rw [heq]
    exact setLoopMode_arbitration _ _ (hmode heq (by rw [hm]; decide))
  · rw [heq]
    exact setLoopMode_arbitration _ _ (hmode heq (by rw [hm]; decide))

theorem judgeLoop_farFail (k : LaneId) (own : Bool) (f : LoopField) (s : State) : (judgeLoop k own f s).prot.farFail = s.prot.farFail := by
  rcases judgeLoop_cases k own f s with ⟨run, h⟩ | ⟨run, -, h⟩ | ⟨run, -, h⟩ <;> rw [h]
  · rfl
  · exact (setLoopMode_switched ..).farFail
  · exact (setLoopMode_switched ..).farFail

/-- A change of the mode, with the lane's record as it is set before the arbiter runs. -/
theorem loopTook_setLoopMode {m : LoopMode} {g : Lane → Lane} {run : Option (LoopField × Time)} {ends : Bool} (hm : m ≠ (s.lane k).loopMode)
    (hends : ends = decide ((s.lane k).loopMode = .line ∧ m = .none))
    (hg : { g (s.lane k) with loopMode := m } = { (s.lane k).count .loopOverrun (if ends then (s.lane k).returnQueue.length else 0) with
      loopRun := run, loopMode := m, returnQueue := if ends then [] else (s.lane k).returnQueue }) :
    LoopTook k s (reportDevice .loop (setLoopMode k m (s.updLane k g))) := by
  obtain ⟨hlane, -⟩ := setLoopMode_lane k m g s
  rw [hg] at hlane
  have hmode : ((reportDevice .loop (setLoopMode k m (s.updLane k g))).lane k).loopMode = m := congrArg Lane.loopMode hlane
  have hrun : ((reportDevice .loop (setLoopMode k m (s.updLane k g))).lane k).loopRun = run := congrArg Lane.loopRun hlane
  refine ⟨(s.updLane k g).updLane k fun l => { l with loopMode := m }, setLoopMode k m (s.updLane k g), ends, by rw [hmode, hends], ?_,
    fun hsame => absurd (hmode.symm.trans hsame) hm, fun _ => ⟨fun hk => ?_, fun hk => setLoopMode_working hk m _, rfl⟩⟩
  · rw [hmode, hrun, State.updLane_updLane]
    exact State.updLane_congr _ hg
  · subst hk
    rw [setLoopMode_standby]
    exact Switching.arbiterJudged _

theorem loopTook (k : LaneId) (own : Bool) (f : LoopField) (s : State) : LoopTook k s (judgeLoop k own f s) := by
  rcases judgeLoop_cases k own f s with ⟨run, h⟩ | ⟨run, hm, h⟩ | ⟨run, hm, h⟩ <;> rw [h]
  · have hlane : (s.updLane k (withRun run)).lane k = withRun run (s.lane k) := State.updLane_lane_eq ..
    have hmode : ((s.updLane k (withRun run)).lane k).loopMode = (s.lane k).loopMode := by rw [hlane]; rfl
    refine ⟨s.updLane k (withRun run), s, false, ?_, ?_, fun _ => rfl, fun hne => absurd hmode hne⟩
    · rw [hmode]
      refine (decide_eq_false ?_).symm
      rintro ⟨h1, h2⟩
      rw [h1] at h2
      cases h2
    · refine State.updLane_congr _ ?_
      rw [hlane]
      simp only [Bool.false_eq_true, if_false, Lane.count_zero]
      rfl
  · refine loopTook_setLoopMode (run := run) (ends := false) (by rw [hm]; decide) (by rw [hm]; rfl) ?_
    simp only [Bool.false_eq_true, if_false, Lane.count_zero]
    rfl
  · exact loopTook_setLoopMode (run := run) (ends := true) (by rw [hm]; decide) (by rw [hm]; rfl) rfl

end loop

end Sys2Proof.BeaconStages
end

section
/-! The statements on a verified beacon: the hand-on, the loop control, steering and adoption (R126 to R128, R131, R135 to R137, R145, R148, R178). -/

namespace Sys2Proof.Beacons
open Sys2Proof.Machine Sys2Proof.Safety Sys2Proof.BeaconStages

/-! ### The controller (R131, R136, R137) -/

/-- The controller's arbitration of a peer-role beacon (R131, R132). -/
def farFailStep (far : BitVec 5) (s : State) : State := if s.prot.farFail = far then s else runArbiter (s.updProt fun p => { p with farFail := far })

/-- The controller's guidance by a peer-role beacon: the steering at a RACK part, the adoption run at a CAMPUS part (R136, R137). -/
def steerStep (k : LaneId) (c : BeaconContent) (s : State) : State :=
  if k = standby ∧ (s.lane standby).state = .up then
    match s.role, c.sender with
    | .rack, .campus => setSteering c.echo s
    | .campus, .rack => judgeAdoption c.bridgedLane s
    | _, _ => s
  else s

/-- From `d` to `t` steering, echo and adoption run moved, the bridging with the echo, PROTECT set at each change (R136, R137). -/
def Steered (d t : State) : Prop :=
  t.prot = { d.prot with steering := t.prot.steering, echo := t.prot.echo, candidate := t.prot.candidate, adoptCount := t.prot.adoptCount } ∧
  BridgingMoved d.prot.echo t.prot.echo d t ∧ OnlyLanesCut d t ∧
  t.agent.devices = (if t.prot.steering = d.prot.steering ∧ t.prot.echo = d.prot.echo then d.agent.devices else d.agent.devices ||| kindBit .protect)

section controller
variable {k : LaneId} {c : BeaconContent} {s : State}

theorem controllerBeacon_eq (k : LaneId) (c : BeaconContent) (s : State) : controllerBeacon k c s = steerStep k c (farFailStep c.farFail s) := rfl

theorem farFailStep_switched (far : BitVec 5) (s : State) : Staged k s (farFailStep far s) := by
  unfold farFailStep
  split
  · exact Staged.refl k s
  · have hset : Staged k s (s.updProt fun p => { p with farFail := far }) := ⟨rfl, ⟨0, by simp⟩, rfl, fun _ _ => OnlyCut.refl _⟩
    exact hset.trans (.of_switched (runArbiter_switched _).1)

theorem farFailStep_lane (far : BitVec 5) (s : State) (j : LaneId) : OnlyCut (s.lane j) ((farFailStep far s).lane j) := by
  unfold farFailStep
  split
  · exact OnlyCut.refl _
  · exact (runArbiter_switched (s.updProt fun p => { p with farFail := far })).1.1 j

theorem farFailTook (far : BitVec 5) (s : State) : FarFailTook far s (farFailStep far s) := by
  refine ⟨fun h => if_pos h.symm, fun h => ?_⟩
  rw [farFailStep, if_neg (Ne.symm h)]
  exact Switching.arbiterJudged _

theorem farFailStep_farFail (far : BitVec 5) (s : State) : (farFailStep far s).prot.farFail = far := by
  unfold farFailStep
  split
  · next h => exact h
  · exact (runArbiter_switched _).1.farFail

theorem farFailStep_guidance (far : BitVec 5) (s : State) : guidance (farFailStep far s) = guidance s := by
  unfold farFailStep
  split
  · rfl
  · exact runArbiter_guidance _

theorem farFailStep_arbitration {far : BitVec 5} (h : s.role = .campus ∨ far = s.prot.farFail) : arbitration (farFailStep far s) = arbitration s := by
  unfold farFailStep
  split
  · rfl
  · next hne => exact runArbiter_arbitration (s := s.updProt fun p => { p with farFail := far }) (h.resolve_right fun e => hne e.symm)

/-- The arbiter finds L4 in loopback unavailable, whatever far-fail set it is given (R131, R133). -/
theorem farFailStep_selection_none {far : BitVec 5} (hr : s.role = .rack) (hm : (s.lane 4).loopMode ≠ .none) (hsel : s.prot.selection = none) :
    (farFailStep far s).prot.selection = none := by
  unfold farFailStep
  split
  · exact hsel
  · refine runArbiter_unavailable (s := s.updProt fun p => { p with farFail := far }) hr ?_
    rw [Bool.eq_false_iff]
    exact fun h => hm (Switching.standbyAvailable_iff.1 h).2.2.1

theorem Steered.refl (s : State) : Steered s s := ⟨rfl, Switching.bridgingMoved_refl _ s, Switching.onlyLanesCut_refl s, (if_pos ⟨rfl, rfl⟩).symm⟩

theorem steered_setSteering (p : Option PortId) (s : State) : Steered s (setSteering p s) := by
  by_cases h : s.prot.steering = p
  · rw [setSteering, if_pos h]
    exact Steered.refl s
  · rw [setSteering, if_neg h]
    exact ⟨rfl, Switching.bridgingMoved_refl s.prot.echo s, Switching.onlyLanesCut_refl s, (if_neg fun e => h e.1.symm).symm⟩

/-- The count of the adoption run after a bridged-lane value (R137). -/
def adoptionCount (v : Option PortId) (s : State) : Nat := if v = s.prot.candidate then min 3 (s.prot.adoptCount + 1) else 1

/-- The adoption run after a bridged-lane value, before it is acted on (R137). -/
def adoptionRun (v : Option PortId) (s : State) : State := s.updProt fun p => { p with candidate := v, adoptCount := adoptionCount v s }

theorem judgeAdoption_eq (v : Option PortId) (s : State) : judgeAdoption v s =
    if adoptionCount v s = 3 ∧ v ≠ s.prot.echo then adopt v (adoptionRun v s) else adoptionRun v s := by
  have hrun : (if v = s.prot.candidate then s.updProt fun p => { p with adoptCount := min 3 (p.adoptCount + 1) }
      else s.updProt fun p => { p with candidate := v, adoptCount := 1 }) = adoptionRun v s := by
    unfold adoptionRun adoptionCount
    by_cases h : v = s.prot.candidate
    · rw [if_pos h, if_pos h, h]; rfl
    · rw [if_neg h, if_neg h]
  unfold judgeAdoption
  rw [hrun]; rfl

theorem steered_judgeAdoption (v : Option PortId) (s : State) : Steered s (judgeAdoption v s) := by
  rw [judgeAdoption_eq]
  by_cases h : adoptionCount v s = 3 ∧ v ≠ s.prot.echo
  · rw [if_pos h]
    have hprot := adopt_prot v (adoptionRun v s)
    have hecho : (adopt v (adoptionRun v s)).prot.echo = v := by rw [hprot]
    refine ⟨by rw [hprot]; rfl, ?_, (adopt_switched v (adoptionRun v s)).1, ?_⟩
    · rw [hecho]
      exact Switching.adopt_bridging (s := adoptionRun v s) (Ne.symm h.2)
    · rw [hecho, if_neg fun e => h.2 e.2, Switching.adopt_devices]; rfl
  · rw [if_neg h]
    exact ⟨rfl, Switching.bridgingMoved_refl s.prot.echo s, Switching.onlyLanesCut_refl s, (if_pos ⟨rfl, rfl⟩).symm⟩

theorem steered_ownBeacon (k : LaneId) (s : State) : Steered s (ownBeacon k s) := by
  unfold ownBeacon
  split
  · exact ⟨rfl, Switching.bridgingMoved_refl s.prot.echo s, Switching.onlyLanesCut_refl s, (if_pos ⟨rfl, rfl⟩).symm⟩
  · exact Steered.refl s

/-- The three outcomes of the controller's guidance (R136, R137; log 35). -/
theorem steerStep_cases (k : LaneId) (c : BeaconContent) (s : State) :
    (k = 4 ∧ (s.lane 4).state = .up ∧ s.role = .rack ∧ c.sender = .campus ∧ steerStep k c s = setSteering c.echo s) ∨
    (k = 4 ∧ (s.lane 4).state = .up ∧ s.role = .campus ∧ c.sender = .rack ∧ steerStep k c s = judgeAdoption c.bridgedLane s) ∨
    ((k ≠ 4 ∨ (s.lane 4).state ≠ .up ∨ c.sender = s.role) ∧ steerStep k c s = s) := by
  by_cases h : k = 4 ∧ (s.lane 4).state = .up
  · obtain ⟨hk, hup⟩ := h
    have hif : steerStep k c s = match s.role, c.sender with
        | .rack, .campus => setSteering c.echo s
        | .campus, .rack => judgeAdoption c.bridgedLane s
        | _, _ => s := if_pos ⟨hk, hup⟩
    rw [hif]
    cases hr : s.role <;> cases hs : c.sender
    · exact .inr (.inr ⟨.inr (.inr rfl), rfl⟩)
    · exact .inl ⟨hk, hup, rfl, rfl, rfl⟩
    · exact .inr (.inl ⟨hk, hup, rfl, rfl, rfl⟩)
    · exact .inr (.inr ⟨.inr (.inr rfl), rfl⟩)
  · refine .inr (.inr ⟨?_, if_neg h⟩)
    by_cases hk : k = 4
    · exact .inr (.inl fun hup => h ⟨hk, hup⟩)
    · exact .inl hk

theorem steerStep_switched (k : LaneId) (c : BeaconContent) (s : State) : Switched s (steerStep k c s) := by
  rcases steerStep_cases k c s with ⟨-, -, -, -, h⟩ | ⟨-, -, -, -, h⟩ | ⟨-, h⟩ <;> rw [h]
  · exact setSteering_switched ..
  · exact judgeAdoption_switched ..
  · exact Switched.refl s

theorem steered_steerStep (k : LaneId) (c : BeaconContent) (s : State) : Steered s (steerStep k c s) := by
  rcases steerStep_cases k c s with ⟨-, -, -, -, h⟩ | ⟨-, -, -, -, h⟩ | ⟨-, h⟩ <;> rw [h]
  · exact steered_setSteering ..
  · exact steered_judgeAdoption ..
  · exact Steered.refl s

theorem steered_arbitration {d t : State} (h : Steered d t) : arbitration t = arbitration d := by
  obtain ⟨hprot, -⟩ := h
  unfold arbitration
  rw [hprot]

theorem steered_farFail {d t : State} (h : Steered d t) : t.prot.farFail = d.prot.farFail := by
  obtain ⟨hprot, -⟩ := h
  rw [hprot]

theorem ownBeacon_switched (k : LaneId) (s : State) : Switched s (ownBeacon k s) := by
  unfold ownBeacon
  split
  · exact clearAdoption_switched s
  · exact Switched.refl s

end controller

/-! ### A beacon that is taken (R126) -/

/-- The lane's record after the beacon was noted (R126). -/
def noted (own : Bool) (c : BeaconContent) (l : Lane) : Lane :=
  if own then l.count .ownBeacons else { l.count .peerBeacons with peerReport := some (c.condition, c.time) }

/-- The counter that notes a beacon. -/
def noteCtr (own : Bool) : LaneCtr := if own then .ownBeacons else .peerBeacons

section taken
variable {k : LaneId} {own : Bool} {c : BeaconContent} {s : State}

theorem noteBeacon_eq (k : LaneId) (own : Bool) (c : BeaconContent) (s : State) : noteBeacon k own c s = s.updLane k (noted own c) := by
  cases own with
  | true => rfl
  | false =>
    show (s.updLane k fun l => { l with peerReport := some (c.condition, c.time) }).updLane k (fun l => l.count .peerBeacons) = _
    rw [State.updLane_updLane]; rfl

theorem count_ctr (l : Lane) (c ctr : LaneCtr) : (l.count c).ctr ctr = addCounter (l.ctr ctr) (if ctr = c then 1 else 0) := by
  rw [Lane.ctr_count]
  by_cases h : ctr = c
  · rw [if_pos h, if_pos h]
  · rw [if_neg h, if_neg h, addCounter_zero]

theorem noted_ctr (own : Bool) (c : BeaconContent) (l : Lane) (ctr : LaneCtr) :
    (noted own c l).ctr ctr = addCounter (l.ctr ctr) (if ctr = noteCtr own then 1 else 0) := by
  have hcount : (noted own c l).ctr ctr = (l.count (noteCtr own)).ctr ctr := by cases own <;> rfl
  rw [hcount, count_ctr]

/-- The state after the monitor, the loop control and the note of a beacon. -/
def heard (k : LaneId) (own : Bool) (c : BeaconContent) (s : State) : State :=
  (judgeLoop k own c.loop (monitorBeacon k own s)).updLane k (noted own c)

/-- The state after the controller's arbitration. -/
def arbitrated (k : LaneId) (own : Bool) (c : BeaconContent) (s : State) : State :=
  if own then heard k own c s else farFailStep c.farFail (heard k own c s)

/-- The state after a beacon that was taken. -/
def heeded (k : LaneId) (own : Bool) (c : BeaconContent) (s : State) : State :=
  if own then ownBeacon k (arbitrated k own c s) else steerStep k c (arbitrated k own c s)

theorem arbitrated_own (k : LaneId) (c : BeaconContent) (s : State) : arbitrated k true c s = heard k true c s := if_pos rfl
theorem arbitrated_peer (k : LaneId) (c : BeaconContent) (s : State) : arbitrated k false c s = farFailStep c.farFail (heard k false c s) :=
  if_neg Bool.false_ne_true
theorem heeded_own (k : LaneId) (c : BeaconContent) (s : State) : heeded k true c s = ownBeacon k (arbitrated k true c s) := if_pos rfl
theorem heeded_peer (k : LaneId) (c : BeaconContent) (s : State) : heeded k false c s = steerStep k c (arbitrated k false c s) :=
  if_neg Bool.false_ne_true

theorem receiveBeacon_ignored {payload : List Byte} {origin : Bool}
    (h : parseBeacon payload origin = none ∨ ∃ c, parseBeacon payload origin = some c ∧ ((s.lane k).state = .los ∨ c.lane ≠ k.val)) :
    receiveBeacon k payload origin own s = s.countLane k .beaconsIgnored := by
  unfold receiveBeacon
  rcases h with h | ⟨c, h, hno⟩
  · rw [h]
  · rw [h]
    exact if_pos hno

theorem receiveBeacon_cipher {payload : List Byte} {origin : Bool} (h : parseBeacon payload origin = some c) (hlos : (s.lane k).state ≠ .los)
    (hlane : c.lane = k.val) (hm : (s.lane k).loopMode = .cipher) :
    receiveBeacon k payload origin own s = (judgeLoop k own c.loop s).updLane k (noted own c) := by
  unfold receiveBeacon
  rw [h, ← noteBeacon_eq]
  exact (if_neg (by simp [hlos, hlane])).trans (if_pos hm)

theorem receiveBeacon_taken {payload : List Byte} {origin : Bool} (h : parseBeacon payload origin = some c) (hlos : (s.lane k).state ≠ .los)
    (hlane : c.lane = k.val) (hm : (s.lane k).loopMode ≠ .cipher) : receiveBeacon k payload origin own s = heeded k own c s := by
  unfold receiveBeacon
  rw [h]
  refine ((if_neg (by simp [hlos, hlane])).trans (if_neg hm)).trans ?_
  cases own with
  | true =>
    rw [heeded_own, arbitrated_own]
    show ownBeacon k (noteBeacon k true c (judgeLoop k true c.loop (monitorBeacon k true s))) = _
    rw [noteBeacon_eq, heard]
  | false =>
    rw [heeded_peer, arbitrated_peer]
    show controllerBeacon k c (noteBeacon k false c (judgeLoop k false c.loop (monitorBeacon k false s))) = _
    rw [noteBeacon_eq, controllerBeacon_eq, heard]

theorem handOn_beacon (k : LaneId) (payload : List Byte) (origin : Bool) (octets : Nat) (own : Bool) (s : State) :
    handOn (.lane k) (.beacon payload origin octets own) s = receiveBeacon k payload origin own (countVerified (.lane k) 1 octets own s) := by rfl

/-- A verified beacon of a lane handed on (R85). -/
theorem exec_beacon {payload : List Byte} {origin : Bool} {octets : Nat} {rest : List InItem}
    (hline : (s.lane k).inLine = .ready (.beacon payload origin octets own) :: rest) :
    exec (.inboundHandOn (.lane k)) s = .next (settle (receiveBeacon k payload origin own
      (countVerified (.lane k) 1 octets own (s.updLane k fun l => { l with inLine := rest })))) := by
  rw [HandedOn.exec_inboundHandOn (p := .lane k) hline, handOn_beacon, HandedOn.setInLine_lane]

/-! #### What each stage keeps, put together -/

theorem heard_staged (k : LaneId) (own : Bool) (c : BeaconContent) (s : State) : Staged k s (heard k own c s) :=
  (monitorBeacon_staged k own s).trans ((judgeLoop_staged k own c.loop _).trans (.updLane k _ _))

theorem arbitrated_staged (k : LaneId) (own : Bool) (c : BeaconContent) (s : State) : Staged k s (arbitrated k own c s) := by
  cases own with
  | true => rw [arbitrated_own]; exact heard_staged k true c s
  | false => rw [arbitrated_peer]; exact (heard_staged k false c s).trans (farFailStep_switched c.farFail _)

theorem steered_heeded (k : LaneId) (own : Bool) (c : BeaconContent) (s : State) : Steered (arbitrated k own c s) (heeded k own c s) := by
  cases own with
  | true => rw [heeded_own]; exact steered_ownBeacon k _
  | false => rw [heeded_peer]; exact steered_steerStep k c _

theorem heeded_switched (k : LaneId) (own : Bool) (c : BeaconContent) (s : State) : Switched (arbitrated k own c s) (heeded k own c s) := by
  cases own with
  | true => rw [heeded_own]; exact ownBeacon_switched k _
  | false => rw [heeded_peer]; exact steerStep_switched k c _

theorem heeded_staged (k : LaneId) (own : Bool) (c : BeaconContent) (s : State) : Staged k s (heeded k own c s) :=
  (arbitrated_staged k own c s).trans (.of_switched (heeded_switched k own c s))

theorem arbitrated_lane (k : LaneId) (own : Bool) (c : BeaconContent) (s : State) :
    OnlyCut ((heard k own c s).lane k) ((arbitrated k own c s).lane k) := by
  cases own with
  | true => rw [arbitrated_own]; exact OnlyCut.refl _
  | false => rw [arbitrated_peer]; exact farFailStep_lane c.farFail _ k

/-- Of its lane a beacon that was taken leaves what the note left, but for a transmission that was cut. -/
theorem heeded_lane (k : LaneId) (own : Bool) (c : BeaconContent) (s : State) :
    OnlyCut (noted own c ((judgeLoop k own c.loop (monitorBeacon k own s)).lane k)) ((heeded k own c s).lane k) := by
  have hheard : (heard k own c s).lane k = noted own c ((judgeLoop k own c.loop (monitorBeacon k own s)).lane k) := State.updLane_lane_eq ..
  rw [← hheard]
  exact (arbitrated_lane k own c s).trans ((heeded_switched k own c s).1 k)

theorem noted_staged (own : Bool) (c : BeaconContent) (l : Lane) : LaneStaged l (noted own c l) := by cases own <;> rfl

theorem heeded_laneStaged (k : LaneId) (own : Bool) (c : BeaconContent) (s : State) : LaneStaged (s.lane k) ((heeded k own c s).lane k) := by
  obtain ⟨n, run, mode, queue, hloop⟩ := judgeLoop_lane k own c.loop (monitorBeacon k own s)
  have hmonitor : LaneStaged (s.lane k) ((monitorBeacon k own s).lane k) :=
    LaneStaged.trans (m := { monitored s own (s.lane k) with state := monitorState own (s.lane k) }) rfl (.of_onlyCut (monitorBeacon_lane k own s))
  have hjudged := LaneStaged.trans (l := (monitorBeacon k own s).lane k) (m := { ((monitorBeacon k own s).lane k).count .loopOverrun n with
    loopRun := run, loopMode := mode, returnQueue := queue }) rfl (.of_onlyCut hloop)
  exact hmonitor.trans (hjudged.trans ((noted_staged own c _).trans (.of_onlyCut (heeded_lane k own c s))))

theorem monitorBeacon_fields (k : LaneId) (own : Bool) (s : State) :
    ((monitorBeacon k own s).lane k).continuity = some { start := s.time, len := 350 * s.prot.interval } ∧
    ((monitorBeacon k own s).lane k).peerRun = (if own then 0 else min 3 ((s.lane k).peerRun + 1)) ∧
    ((monitorBeacon k own s).lane k).state = monitorState own (s.lane k) ∧ ((monitorBeacon k own s).lane k).peerReport = (s.lane k).peerReport ∧
    ((monitorBeacon k own s).lane k).loopMode = (s.lane k).loopMode := by
  have h := monitorBeacon_lane k own s
  refine ⟨?_, ?_, ?_, ?_, ?_⟩
  · rw [onlyCut_continuity h]; rfl
  · rw [onlyCut_peerRun h]; rfl
  · rw [onlyCut_state h]
  · rw [onlyCut_peerReport h]; rfl
  · rw [onlyCut_loopMode h]; rfl

theorem judgeLoop_fields (k : LaneId) (own : Bool) (f : LoopField) (s : State) :
    ((judgeLoop k own f s).lane k).continuity = (s.lane k).continuity ∧ ((judgeLoop k own f s).lane k).peerRun = (s.lane k).peerRun ∧
    ((judgeLoop k own f s).lane k).state = (s.lane k).state ∧ ((judgeLoop k own f s).lane k).peerReport = (s.lane k).peerReport := by
  obtain ⟨n, run, mode, queue, h⟩ := judgeLoop_lane k own f s
  refine ⟨?_, ?_, ?_, ?_⟩
  · rw [onlyCut_continuity h]; rfl
  · rw [onlyCut_peerRun h]; rfl
  · rw [onlyCut_state h]; rfl
  · rw [onlyCut_peerReport h]; rfl

theorem noted_fields (own : Bool) (c : BeaconContent) (l : Lane) : (noted own c l).continuity = l.continuity ∧ (noted own c l).peerRun = l.peerRun ∧
    (noted own c l).state = l.state ∧ (noted own c l).peerReport = (if own then l.peerReport else some (c.condition, c.time)) ∧
    (noted own c l).loopMode = l.loopMode ∧ (noted own c l).loopRun = l.loopRun ∧ (noted own c l).returnQueue = l.returnQueue := by
  cases own <;> exact ⟨rfl, rfl, rfl, rfl, rfl, rfl, rfl⟩

/-- What the monitor and the note leave in the record of the lane (R126 to R128). -/
theorem heeded_fields (k : LaneId) (own : Bool) (c : BeaconContent) (s : State) :
    ((heeded k own c s).lane k).continuity = some { start := s.time, len := 350 * s.prot.interval } ∧
    ((heeded k own c s).lane k).peerRun = (if own then 0 else min 3 ((s.lane k).peerRun + 1)) ∧
    ((heeded k own c s).lane k).state = monitorState own (s.lane k) ∧
    ((heeded k own c s).lane k).peerReport = if own then (s.lane k).peerReport else some (c.condition, c.time) := by
  have hfinal := heeded_lane k own c s
  obtain ⟨hcont, hrun, hstate, hreport, -⟩ := monitorBeacon_fields k own s
  obtain ⟨hcont', hrun', hstate', hreport'⟩ := judgeLoop_fields k own c.loop (monitorBeacon k own s)
  obtain ⟨ncont, nrun, nstate, nreport, -⟩ := noted_fields own c ((judgeLoop k own c.loop (monitorBeacon k own s)).lane k)
  rw [onlyCut_continuity hfinal, onlyCut_peerRun hfinal, onlyCut_state hfinal, onlyCut_peerReport hfinal, ncont, nrun, nstate, nreport, hcont', hrun', hstate',
    hreport', hcont, hrun, hstate, hreport]
  exact ⟨rfl, rfl, rfl, rfl⟩

theorem heeded_ctr {ctr : LaneCtr} (hlost : ctr ≠ .lostOnSwitch) (hover : ctr ≠ .loopOverrun) :
    ((heeded k own c s).lane k).ctr ctr = addCounter ((s.lane k).ctr ctr) (if ctr = noteCtr own then 1 else 0) := by
  obtain ⟨n, run, mode, queue, -, hloop⟩ := judgeLoop_lane k own c.loop (monitorBeacon k own s)
  have hcount : ((judgeLoop k own c.loop (monitorBeacon k own s)).lane k).ctr ctr = ((monitorBeacon k own s).lane k).ctr ctr := by
    rw [hloop ctr hlost]
    show (((monitorBeacon k own s).lane k).count .loopOverrun n).ctr ctr = _
    rw [Lane.ctr_count, if_neg hover]
  rw [(heeded_lane k own c s).2 ctr hlost, noted_ctr, hcount, (monitorBeacon_lane k own s).2 ctr hlost]
  rfl

theorem heard_farFail (k : LaneId) (own : Bool) (c : BeaconContent) (s : State) : (heard k own c s).prot.farFail = s.prot.farFail := by
  have hloop : (heard k own c s).prot.farFail = (judgeLoop k own c.loop (monitorBeacon k own s)).prot.farFail := rfl
  rw [hloop, judgeLoop_farFail, monitorBeacon_farFail]

theorem heeded_farFail (k : LaneId) (own : Bool) (c : BeaconContent) (s : State) :
    (heeded k own c s).prot.farFail = if own then s.prot.farFail else c.farFail := by
  rw [steered_farFail (steered_heeded k own c s)]
  cases own with
  | true =>
    rw [arbitrated_own, heard_farFail, if_pos rfl]
  | false =>
    rw [arbitrated_peer, farFailStep_farFail, if_neg Bool.false_ne_true]

theorem heeded_loopMode (k : LaneId) (own : Bool) (c : BeaconContent) (s : State) :
    ((heeded k own c s).lane k).loopMode = ((judgeLoop k own c.loop (monitorBeacon k own s)).lane k).loopMode := by
  obtain ⟨-, -, -, -, hmode, -⟩ := noted_fields own c ((judgeLoop k own c.loop (monitorBeacon k own s)).lane k)
  rw [onlyCut_loopMode (heeded_lane k own c s), hmode]

/-- Where no lane state, no far-fail set and no loop mode of L4 changes, and at a CAMPUS part, the arbiter's results stay (R131, R137). -/
theorem heeded_arbitration (h : s.role = .campus ∨ monitorState own (s.lane k) = (s.lane k).state ∧ (heeded k own c s).prot.farFail = s.prot.farFail ∧
    (k = 4 → ((heeded k own c s).lane k).loopMode = (s.lane k).loopMode)) : arbitration (heeded k own c s) = arbitration s := by
  have hmonitor : arbitration (monitorBeacon k own s) = arbitration s := monitorBeacon_arbitration own (h.imp id And.left)
  obtain ⟨-, -, -, -, hmode⟩ := monitorBeacon_fields k own s
  have hloop : arbitration (judgeLoop k own c.loop (monitorBeacon k own s)) = arbitration (monitorBeacon k own s) :=
    judgeLoop_arbitration (h.imp (fun hr => by rw [(monitorBeacon_staged k own s).role]; exact hr) fun ⟨_, _, hl⟩ hk => by
      rw [hmode, ← hl hk, heeded_loopMode])
  have hnote : arbitration (heard k own c s) = arbitration (judgeLoop k own c.loop (monitorBeacon k own s)) := rfl
  have hheard : arbitration (heard k own c s) = arbitration s := by rw [hnote, hloop, hmonitor]
  rw [steered_arbitration (steered_heeded k own c s), ← hheard]
  cases own with
  | true => rw [arbitrated_own]
  | false =>
    rw [arbitrated_peer]
    refine farFailStep_arbitration (h.imp (fun hr => by rw [(heard_staged k false c s).role]; exact hr) fun ⟨_, hf, _⟩ => ?_)
    rw [heard_farFail, ← hf, heeded_farFail, if_neg Bool.false_ne_true]

end taken

/-! ### The state that the hand-on starts from -/

section handed
variable {k : LaneId} {s : State} {octets : Nat} {own : Bool} {rest : List InItem}

/-- The state of which a verified beacon was taken off its line and counted (R85). -/
def handed (k : LaneId) (octets : Nat) (own : Bool) (rest : List InItem) (s : State) : State :=
  countVerified (.lane k) 1 octets own (s.updLane k fun l => { l with inLine := rest })

theorem handed_own : handed k octets true rest s = s.updLane k fun l => Lane.count { l with inLine := rest } .ownVerified := by
  show (s.updLane k fun l => { l with inLine := rest }).updLane k (fun l => l.count .ownVerified) = _
  rw [State.updLane_updLane]

theorem handed_peer : handed k octets false rest s =
    ((s.updLane k fun l => { l with inLine := rest }).countChan 1 .verifiedFrames).countChan 1 .verifiedOctets octets := rfl

theorem handed_lane (k : LaneId) (octets : Nat) (own : Bool) (rest : List InItem) (s : State) : ∃ counters,
    (handed k octets own rest s).lane k = { s.lane k with inLine := rest, counters := counters } ∧
    ∀ ctr, ctr ≠ .ownVerified → ((handed k octets own rest s).lane k).ctr ctr = (s.lane k).ctr ctr := by
  cases own with
  | true =>
    rw [handed_own, State.updLane_lane_eq]
    refine ⟨_, rfl, fun ctr hctr => ?_⟩
    rw [Lane.ctr_count, if_neg hctr]
    rfl
  | false =>
    rw [handed_peer, State.countChan, State.countChan, State.updChan_lane, State.updChan_lane, State.updLane_lane_eq]
    exact ⟨(s.lane k).counters, rfl, fun ctr _ => rfl⟩

theorem handed_lane_ne {j : LaneId} (hj : j ≠ k) : (handed k octets own rest s).lane j = s.lane j := by
  cases own with
  | true => rw [handed_own, State.updLane_lane, if_neg hj]
  | false => rw [handed_peer, State.countChan, State.countChan, State.updChan_lane, State.updChan_lane, State.updLane_lane, if_neg hj]

theorem handed_frame : (handed k octets own rest s).prot = s.prot ∧ (handed k octets own rest s).agent = s.agent ∧
    (handed k octets own rest s).time = s.time ∧ (handed k octets own rest s).role = s.role := by
  cases own <;> exact ⟨rfl, rfl, rfl, rfl⟩

end handed

end Sys2Proof.Beacons
end

section
/-! A verified beacon handed on, the loop control, steering and adoption: the three statements (R126 to R128, R131, R135 to R137, R145, R148, R178). -/

namespace Sys2Proof.BeaconStatements
open Sys2Proof.Machine Sys2Proof.Safety Sys2Proof.BeaconStages Sys2Proof.Beacons

section facts
variable {k : LaneId} {s : State} {octets : Nat} {own : Bool} {rest : List InItem} {c : BeaconContent}

/-- What the count of a beacon leaves of the record of its lane. -/
theorem handed_fields (k : LaneId) (octets : Nat) (own : Bool) (rest : List InItem) (s : State) :
    ((handed k octets own rest s).lane k).state = (s.lane k).state ∧ ((handed k octets own rest s).lane k).peerRun = (s.lane k).peerRun ∧
    ((handed k octets own rest s).lane k).peerReport = (s.lane k).peerReport ∧ ((handed k octets own rest s).lane k).loopMode = (s.lane k).loopMode ∧
    ((handed k octets own rest s).lane k).loopField = (s.lane k).loopField ∧ ((handed k octets own rest s).lane k).autoAccept = (s.lane k).autoAccept ∧
    ((handed k octets own rest s).lane k).persistence = (s.lane k).persistence ∧ ((handed k octets own rest s).lane k).loopRun = (s.lane k).loopRun ∧
    ((handed k octets own rest s).lane k).returnQueue = (s.lane k).returnQueue ∧ ((handed k octets own rest s).lane k).tx = (s.lane k).tx := by
  obtain ⟨counters, h, -⟩ := handed_lane k octets own rest s
  rw [h]
  exact ⟨rfl, rfl, rfl, rfl, rfl, rfl, rfl, rfl, rfl, rfl⟩

theorem handed_eq (k : LaneId) (octets : Nat) (own : Bool) (rest : List InItem) (s : State) : handed k octets own rest s =
    if own then (s.updLane k fun l => { l with inLine := rest }).countLane k .ownVerified
    else ((s.updLane k fun l => { l with inLine := rest }).countChan 1 .verifiedFrames).countChan 1 .verifiedOctets octets := by
  cases own <;> rfl

/-- What comes after the monitor adds device notices alone to those it set. -/
theorem heeded_after_monitor (k : LaneId) (own : Bool) (c : BeaconContent) (s : State) : Staged k (monitorBeacon k own s) (heeded k own c s) := by
  have hheard : Staged k (monitorBeacon k own s) (heard k own c s) := (judgeLoop_staged k own c.loop _).trans (.updLane k _ _)
  have harb : Staged k (heard k own c s) (arbitrated k own c s) := by
    cases own with
    | true => rw [arbitrated_own]; exact Staged.refl k _
    | false => rw [arbitrated_peer]; exact farFailStep_switched c.farFail _
  exact hheard.trans (harb.trans (.of_switched (heeded_switched k own c s)))

/-- A beacon that is taken, in and out of loopback. -/
theorem exec_taken {payload : List Byte} {origin : Bool} (hline : (s.lane k).inLine = .ready (.beacon payload origin octets own) :: rest)
    (hparse : parseBeacon payload origin = some c) (hlos : (s.lane k).state ≠ .los) (hlane : c.lane = k.val) (hm : (s.lane k).loopMode ≠ .cipher) :
    exec (.inboundHandOn (.lane k)) s = .next (settle (heeded k own c (handed k octets own rest s))) := by
  obtain ⟨hstate, -, -, hmode, -⟩ := handed_fields k octets own rest s
  rw [exec_beacon hline]
  exact congrArg (fun t => Host.Outcome.next (settle t)) (receiveBeacon_taken (s := handed k octets own rest s) hparse (by rw [hstate]; exact hlos) hlane
    (by rw [hmode]; exact hm))

theorem exec_cipher {payload : List Byte} {origin : Bool} (hline : (s.lane k).inLine = .ready (.beacon payload origin octets own) :: rest)
    (hparse : parseBeacon payload origin = some c) (hlos : (s.lane k).state ≠ .los) (hlane : c.lane = k.val) (hm : (s.lane k).loopMode = .cipher) :
    exec (.inboundHandOn (.lane k)) s = .next (settle ((handed k octets own rest s).updLane k fun l => noted own c (withRun none l))) := by
  obtain ⟨hstate, -, -, hmode, -⟩ := handed_fields k octets own rest s
  rw [exec_beacon hline]
  refine congrArg (fun t => Host.Outcome.next (settle t)) ((receiveBeacon_cipher (s := handed k octets own rest s) hparse (by rw [hstate]; exact hlos) hlane
    (by rw [hmode]; exact hm)).trans ?_)
  rw [judgeLoop_untracked (.inl (by rw [hmode]; exact hm)), State.updLane_updLane]

end facts

/-- Settles O24: which beacons are undefined, which are ignored, CIPHER loopback, and the stages of any other. -/
theorem beaconHandedOn : Obligations.BeaconHandedOn := by
  refine ⟨fun payload origin b hb => ⟨?_, fun c h => ?_⟩, fun k s s1 payload origin own octets rest hline hs1 => ?_⟩
  · simp only [hb]
    exact LaneUnits.parseBeacon_none_iff payload origin
  · simp only [hb]
    exact LaneUnits.parseBeacon_fields h
  · rw [← handed_eq] at hs1
    subst hs1
    obtain ⟨hstate, hrun, hreport, hmode, -⟩ := handed_fields k octets own rest s
    obtain ⟨hprot, hagent, htime, hrole⟩ := handed_frame (k := k) (s := s) (octets := octets) (own := own) (rest := rest)
    refine ⟨fun h => ?_, fun c hm hparse hlos hlane => ?_, fun c hm hparse hlos hlane => ?_⟩
    · rw [exec_beacon hline]
      exact congrArg (fun t => Host.Outcome.next (settle t)) (receiveBeacon_ignored (s := handed k octets own rest s) (by rw [hstate]; exact h))
    · rw [exec_cipher hline hparse hlos hlane hm]
      refine congrArg (fun t => Host.Outcome.next (settle t)) (State.updLane_congr _ ?_)
      cases own <;> rfl
    · refine ⟨_, exec_taken hline hparse hlos hlane hm, ?_⟩
      obtain ⟨hcont, hprun, hpstate, hpreport⟩ := heeded_fields k own c (handed k octets own rest s)
      have hfar := heeded_farFail k own c (handed k octets own rest s)
      obtain ⟨hsprot, ⟨dev, hsagent⟩, hsframe, hothers⟩ := heeded_staged k own c (handed k octets own rest s)
      obtain ⟨sprot, sbridge, scut, sdevices⟩ := steered_heeded k own c (handed k octets own rest s)
      rw [hrun] at hprun
      rw [hreport] at hpreport
      have hmstate : monitorState own ((handed k octets own rest s).lane k) = monitorState own (s.lane k) := by
        unfold monitorState
        rw [hrun, hstate]
      rw [hmstate] at hpstate
      refine ⟨?_, fun hown => ⟨?_, ?_, ?_, ?_⟩, fun hown => ⟨?_, ?_, ?_, ?_⟩, fun ctr hlost hover => heeded_ctr hlost hover, fun hmoved => ?_, fun j => ?_,
        fun j hj => ?_, ?_, ?_, hsframe, ?_, fun h => ?_⟩
      · rw [hcont, htime, hprot]
      · rw [hprun, hown]; rfl
      · rw [hpreport, hown]; rfl
      · rw [hpstate, hown]; rfl
      · rw [hfar, hown]; rfl
      · rw [hprun, hown]; rfl
      · rw [hpreport, hown]; rfl
      · rw [hpstate, hown]; rfl
      · rw [hfar, hprot, hown]; rfl
      · refine (heeded_after_monitor k own c _).devices (monitorBeacon_device own ?_)
        rw [hmstate, hstate, ← hpstate]
        exact hmoved
      · by_cases hj : j = k
        · rw [hj]
          exact heeded_laneStaged k own c _
        · exact LaneStaged.of_onlyCut (hothers j hj)
      · have hcut := hothers j hj
        rwa [handed_lane_ne hj] at hcut
      · rwa [hprot] at hsprot
      · rw [hagent] at hsagent
        rw [hsagent]
      · exact ⟨_, _, heard k own c (handed k octets own rest s), arbitrated k own c (handed k octets own rest s), monitorTook k own _, loopTook k own c.loop _,
          rfl, fun hown => (by rw [hown]; exact arbitrated_own k c _), fun hown => (by rw [hown, arbitrated_peer]; exact farFailTook c.farFail _), sprot, sbridge,
          scut, sdevices⟩
      · have harb : arbitration (heeded k own c (handed k octets own rest s)) = arbitration (handed k octets own rest s) := by
          refine heeded_arbitration (h.imp (fun hr => by rw [hrole]; exact hr) fun ⟨hs, hf, hl⟩ => ⟨?_, by rw [hprot]; exact hf, fun hk => ?_⟩)
          · rw [hmstate, ← hpstate, hstate]
            exact hs
          · rw [hmode]
            subst hk
            exact hl rfl
        have hsame : arbitration (handed k octets own rest s) = arbitration s := congrArg (fun p : Protection => (p.selection, p.classes, p.wtrTimer)) hprot
        rw [hsame] at harb
        simp only [arbitration, Prod.mk.injEq] at harb
        exact harb

/-! ### The loop control (R145, R148) -/

section loop
variable {k : LaneId} {own : Bool} {f : LoopField} {s : State} {start : Time}

theorem judgeLoop_untracked_lane (h : Untracked (s.lane k) own f) : (judgeLoop k own f s).lane k = withRun none (s.lane k) := by
  rw [judgeLoop_untracked h, State.updLane_lane_eq]

/-- The run of a tracked beacon (R148). -/
theorem run_of_start (h : (s.lane k).loopRun = some (f, start) ∨ (∀ u, (s.lane k).loopRun ≠ some (f, u)) ∧ start = s.time) :
    nextLoopRun s.time (s.lane k).loopRun f = some (f, start) := nextLoopRun_start h

theorem runComplete_iff (now : Time) (persistence : Nat) : runComplete now persistence (some (f, start)) = true ↔ persistence * 1000000 ≤ (now - start).toNat :=
  decide_eq_true_iff

theorem judgeLoop_tracked_run (h : ¬ Untracked (s.lane k) own f) (hrun : nextLoopRun s.time (s.lane k).loopRun f = some (f, start)) :
    ((judgeLoop k own f s).lane k).loopRun = some (f, start) := by
  by_cases hcomplete : runComplete s.time (s.lane k).persistence (nextLoopRun s.time (s.lane k).loopRun f) = true
  · by_cases hbegin : f = .request ∧ (s.lane k).loopMode = .none
    · rw [judgeLoop_begins h hcomplete hbegin.1 hbegin.2, reportDevice_lane, onlyCut_loopRun (setLoopMode_lane k .line (withRun _) s)]
      exact hrun
    · by_cases hend : f = .release ∧ (s.lane k).loopMode = .line
      · rw [judgeLoop_ends h hcomplete hend.1 hend.2, reportDevice_lane, onlyCut_loopRun (setLoopMode_lane k .none _ s)]
        exact hrun
      · have hother : f = .request ∧ (s.lane k).loopMode ≠ .none ∨ f = .release ∧ (s.lane k).loopMode ≠ .line := by
          cases hf : f with
          | none => exact absurd (.inr (.inr (.inr (.inr hf)))) h
          | request => exact .inl ⟨rfl, fun hm => hbegin ⟨hf, hm⟩⟩
          | release => exact .inr ⟨rfl, fun hm => hend ⟨hf, hm⟩⟩
        rw [judgeLoop_incomplete h (.inr hother), State.updLane_lane_eq]
        exact hrun
  · rw [judgeLoop_incomplete h (.inl (Bool.eq_false_iff.2 hcomplete)), State.updLane_lane_eq]
    exact hrun

/-- A complete run of REQUEST begins LINE loopback; L4 in it is not available to a RACK part (R131, R145). -/
theorem judgeLoop_begun (h : ¬ Untracked (s.lane k) own f)
    (hcomplete : runComplete s.time (s.lane k).persistence (nextLoopRun s.time (s.lane k).loopRun f) = true) (hf : f = .request)
    (hm : (s.lane k).loopMode = .none) :
    ((judgeLoop k own f s).lane k).loopMode = .line ∧ ((judgeLoop k own f s).lane k).returnQueue = (s.lane k).returnQueue ∧
    ((judgeLoop k own f s).lane k).ctr .loopOverrun = (s.lane k).ctr .loopOverrun ∧ (judgeLoop k own f s).agent.devices.getLsbD 2 = true ∧
    (k = 4 → s.role = .rack → (judgeLoop k own f s).prot.selection = none) := by
  rw [judgeLoop_begins h hcomplete hf hm]
  have hlane := setLoopMode_lane k .line (withRun (nextLoopRun s.time (s.lane k).loopRun f)) s
  refine ⟨?_, ?_, ?_, ?_, fun hk hr => ?_⟩
  · rw [reportDevice_lane, onlyCut_loopMode hlane]
  · rw [reportDevice_lane, onlyCut_returnQueue hlane]; rfl
  · rw [reportDevice_lane, hlane.2 .loopOverrun (by decide)]; rfl
  · rw [reportDevice_devices]
    simp [kindBit]
  · subst hk
    rw [reportDevice_prot, setLoopMode_standby]
    refine runArbiter_unavailable hr (Bool.eq_false_iff.2 fun havail => ?_)
    have hmode := (Switching.standbyAvailable_iff.1 havail).2.2.1
    rw [State.updLane_lane_eq] at hmode
    cases hmode

/-- A complete run of RELEASE ends LINE loopback, its return queue discarded and counted (R145). -/
theorem judgeLoop_ended (h : ¬ Untracked (s.lane k) own f)
    (hcomplete : runComplete s.time (s.lane k).persistence (nextLoopRun s.time (s.lane k).loopRun f) = true) (hf : f = .release)
    (hm : (s.lane k).loopMode = .line) :
    ((judgeLoop k own f s).lane k).loopMode = .none ∧ ((judgeLoop k own f s).lane k).returnQueue = [] ∧
    ((judgeLoop k own f s).lane k).ctr .loopOverrun = addCounter ((s.lane k).ctr .loopOverrun) (s.lane k).returnQueue.length ∧
    (judgeLoop k own f s).agent.devices.getLsbD 2 = true := by
  rw [judgeLoop_ends h hcomplete hf hm]
  have hlane := setLoopMode_lane k .none (fun l =>
    { (withRun (nextLoopRun s.time (s.lane k).loopRun f) l).count .loopOverrun l.returnQueue.length with returnQueue := [] }) s
  refine ⟨?_, ?_, ?_, ?_⟩
  · rw [reportDevice_lane, onlyCut_loopMode hlane]
  · rw [reportDevice_lane, onlyCut_returnQueue hlane]
  · rw [reportDevice_lane, hlane.2 .loopOverrun (by decide)]
    show ((withRun (nextLoopRun s.time (s.lane k).loopRun f) (s.lane k)).count .loopOverrun (s.lane k).returnQueue.length).ctr .loopOverrun = _
    rw [Lane.ctr_count, if_pos rfl]
    rfl
  · rw [reportDevice_devices]
    simp [kindBit]

end loop

/-- `t` is what is left of `s`, the loop control's result, in the loop items of lane `k`: a beacon noted and, on the way, transmissions cut. -/
def LoopLeft (k : LaneId) (s t : State) : Prop :=
  (t.lane k).loopRun = (s.lane k).loopRun ∧ (t.lane k).loopMode = (s.lane k).loopMode ∧ (t.lane k).returnQueue = (s.lane k).returnQueue ∧
  (t.lane k).ctr .loopOverrun = (s.lane k).ctr .loopOverrun ∧
  (s.agent.devices.getLsbD 2 = true → t.agent.devices.getLsbD 2 = true) ∧
  (s.role = .rack → (s.lane 4).loopMode ≠ .none → s.prot.selection = none → t.prot.selection = none)

theorem loopLeft_updLane_noted (k : LaneId) (own : Bool) (c : BeaconContent) (s : State) : LoopLeft k s (s.updLane k (noted own c)) := by
  obtain ⟨-, -, -, -, hmode, hrun, hqueue⟩ := noted_fields own c (s.lane k)
  refine ⟨?_, ?_, ?_, ?_, id, fun _ _ => id⟩
  · rw [State.updLane_lane_eq, hrun]
  · rw [State.updLane_lane_eq, hmode]
  · rw [State.updLane_lane_eq, hqueue]
  · rw [State.updLane_lane_eq, noted_ctr, if_neg (by cases own <;> decide), addCounter_zero]

theorem noted_loopMode (own : Bool) (c : BeaconContent) (l : Lane) : (noted own c l).loopMode = l.loopMode := by
  obtain ⟨-, -, -, -, h, -⟩ := noted_fields own c l
  exact h

theorem loopLeft_heeded (k : LaneId) (own : Bool) (c : BeaconContent) (s : State) :
    LoopLeft k (judgeLoop k own c.loop (monitorBeacon k own s)) (heeded k own c s) := by
  have hlane := heeded_lane k own c s
  obtain ⟨-, -, -, -, hmode, hrun, hqueue⟩ := noted_fields own c ((judgeLoop k own c.loop (monitorBeacon k own s)).lane k)
  refine ⟨?_, ?_, ?_, ?_, fun hbit => ?_, fun hr hm hsel => ?_⟩
  · rw [onlyCut_loopRun hlane, hrun]
  · rw [onlyCut_loopMode hlane, hmode]
  · rw [onlyCut_returnQueue hlane, hqueue]
  · rw [hlane.2 .loopOverrun (by decide), noted_ctr, if_neg (by cases own <;> decide), addCounter_zero]
  · have hheard : (heard k own c s).agent.devices.getLsbD 2 = true := hbit
    have harb : Staged k (heard k own c s) (arbitrated k own c s) := by
      cases own with
      | true => rw [arbitrated_own]; exact Staged.refl k _
      | false => rw [arbitrated_peer]; exact farFailStep_switched c.farFail _
    exact (harb.trans (.of_switched (heeded_switched k own c s))).devices hheard
  · have harb := steered_arbitration (steered_heeded k own c s)
    have hheard : (heard k own c s).prot.selection = none := hsel
    have hrole : (heard k own c s).role = .rack := hr
    have hline : ((heard k own c s).lane 4).loopMode ≠ .none := by
      rw [heard, State.updLane_lane]
      split
      · rw [noted_loopMode]
        exact hm
      · exact hm
    have hnone : (arbitrated k own c s).prot.selection = none := by
      cases own with
      | true => rw [arbitrated_own]; exact hheard
      | false => rw [arbitrated_peer]; exact farFailStep_selection_none hrole hline hheard
    rw [← hnone]
    exact congrArg Prod.fst harb

/-- Two records of a lane agree in what the loop control reads and moves. -/
def SameLoop (l m : Lane) : Prop :=
  m.loopMode = l.loopMode ∧ m.loopField = l.loopField ∧ m.autoAccept = l.autoAccept ∧ m.persistence = l.persistence ∧ m.loopRun = l.loopRun ∧
  m.returnQueue = l.returnQueue ∧ m.ctr .loopOverrun = l.ctr .loopOverrun

theorem sameLoop_handed (k : LaneId) (octets : Nat) (own : Bool) (rest : List InItem) (s : State) :
    SameLoop (s.lane k) ((handed k octets own rest s).lane k) := by
  obtain ⟨-, -, -, hmode, hfield, haccept, hpers, hrun, hqueue, -⟩ := handed_fields k octets own rest s
  obtain ⟨counters, -, hctr⟩ := handed_lane k octets own rest s
  exact ⟨hmode, hfield, haccept, hpers, hrun, hqueue, hctr _ (by decide)⟩

theorem sameLoop_monitorBeacon (k : LaneId) (own : Bool) (s : State) : SameLoop (s.lane k) ((monitorBeacon k own s).lane k) := by
  have h := monitorBeacon_lane k own s
  refine ⟨?_, ?_, ?_, ?_, ?_, ?_, h.2 _ (by decide)⟩
  all_goals rw [h.1]; rfl

theorem SameLoop.trans {l m n : Lane} (h1 : SameLoop l m) (h2 : SameLoop m n) : SameLoop l n := by
  obtain ⟨a1, b1, c1, d1, e1, f1, g1⟩ := h1
  obtain ⟨a2, b2, c2, d2, e2, f2, g2⟩ := h2
  exact ⟨a2.trans a1, b2.trans b1, c2.trans c1, d2.trans d1, e2.trans e1, f2.trans f1, g2.trans g1⟩

theorem SameLoop.untracked_iff {l m : Lane} (h : SameLoop l m) (own : Bool) (f : LoopField) : Untracked m own f ↔ Untracked l own f := by
  obtain ⟨hmode, hfield, haccept, -⟩ := h
  unfold Untracked
  rw [hmode, hfield, haccept]

/-- A beacon that is not ignored: the state the loop control judges it in, and the state that is left. -/
theorem exec_loop {k : LaneId} {s : State} {payload : List Byte} {origin own : Bool} {octets : Nat} {rest : List InItem} {c : BeaconContent}
    (hline : (s.lane k).inLine = .ready (.beacon payload origin octets own) :: rest) (hparse : parseBeacon payload origin = some c)
    (hlos : (s.lane k).state ≠ .los) (hlane : c.lane = k.val) :
    ∃ a t, exec (.inboundHandOn (.lane k)) s = .next (settle t) ∧ LoopLeft k (judgeLoop k own c.loop a) t ∧ SameLoop (s.lane k) (a.lane k) ∧
      a.time = s.time ∧ a.role = s.role ∧ ∀ j, j ≠ k → OnlyCut (s.lane j) (t.lane j) := by
  have hhanded := sameLoop_handed k octets own rest s
  obtain ⟨-, -, htime, hrole⟩ := handed_frame (k := k) (s := s) (octets := octets) (own := own) (rest := rest)
  by_cases hm : (s.lane k).loopMode = .cipher
  · refine ⟨handed k octets own rest s, _, exec_cipher hline hparse hlos hlane hm, ?_, hhanded, htime, hrole, fun j hj => ?_⟩
    · have hjudged := judgeLoop_untracked (k := k) (own := own) (f := c.loop) (s := handed k octets own rest s) (.inl (hhanded.1.trans hm))
      have hmerge : (handed k octets own rest s).updLane k (fun l => noted own c (withRun none l)) =
          (judgeLoop k own c.loop (handed k octets own rest s)).updLane k (noted own c) := by rw [hjudged, State.updLane_updLane]
      rw [hmerge]
      exact loopLeft_updLane_noted k own c _
    · rw [State.updLane_lane, if_neg hj, handed_lane_ne hj]
      exact OnlyCut.refl _
  · have hstaged := heeded_staged k own c (handed k octets own rest s)
    refine ⟨monitorBeacon k own (handed k octets own rest s), _, exec_taken hline hparse hlos hlane hm, loopLeft_heeded k own c _,
      hhanded.trans (sameLoop_monitorBeacon k own _), ?_, ?_, fun j hj => ?_⟩
    · rw [(monitorBeacon_staged k own _).time, htime]
    · rw [(monitorBeacon_staged k own _).role, hrole]
    · obtain ⟨-, -, -, hothers⟩ := hstaged
      have hcut := hothers j hj
      rwa [handed_lane_ne hj] at hcut

/-- Settles O25: the loop control's result, in and out of CIPHER loopback, and what is left of it. -/
theorem beaconLoopJudged : Obligations.BeaconLoopJudged := by
  intro k s l c payload origin own octets rest hl hline hparse hlos hlane
  subst hl
  obtain ⟨a, t, hexec, ⟨hrun, hmode, hqueue, hctr, hbit, hsel⟩, hsame, htime, hrole, hothers⟩ := exec_loop hline hparse hlos hlane
  have huntracked := hsame.untracked_iff own c.loop
  obtain ⟨smode, -, -, spers, srun, squeue, sctr⟩ := hsame
  refine ⟨t, _, Untracked (s.lane k) own c.loop, hexec, rfl, Iff.rfl, fun hu => ?_, fun start hu hstart => ?_, fun j hj => ?_⟩
  · have hx := judgeLoop_untracked_lane (huntracked.2 hu)
    rw [hrun, hmode, hqueue, hctr, hx]
    exact ⟨rfl, smode, squeue, sctr⟩
  · have hu' := fun h => hu (huntracked.1 h)
    have hnext : nextLoopRun a.time (a.lane k).loopRun c.loop = some (c.loop, start) := by
      rw [srun, htime]
      exact nextLoopRun_start hstart
    have hcomplete : (s.lane k).persistence * 1000000 ≤ (s.time - start).toNat →
        runComplete a.time (a.lane k).persistence (nextLoopRun a.time (a.lane k).loopRun c.loop) = true := fun h => by
      rw [hnext, spers, htime]
      exact (runComplete_iff ..).2 h
    rw [hrun, hmode, hqueue, hctr]
    refine ⟨judgeLoop_tracked_run hu' hnext, fun hdone hf hm => ?_, fun hdone hf hm => ?_, fun hno => ?_⟩
    · obtain ⟨h1, h2, h3, h4, h5⟩ := judgeLoop_begun hu' (hcomplete hdone) hf (smode.trans hm)
      refine ⟨h1, h2.trans squeue, h3.trans sctr, hbit h4, fun hk hr => ?_⟩
      subst hk
      have hrack : a.role = .rack := hrole.trans hr
      exact hsel (by rw [(judgeLoop_staged 4 own c.loop a).role]; exact hrack) (by rw [h1]; decide) (h5 rfl hrack)
    · obtain ⟨h1, h2, h3, h4⟩ := judgeLoop_ended hu' (hcomplete hdone) hf (smode.trans hm)
      exact ⟨h1, h2, by rw [h3, sctr, squeue], hbit h4⟩
    · have hx : (judgeLoop k own c.loop a).lane k = withRun (nextLoopRun a.time (a.lane k).loopRun c.loop) (a.lane k) := by
        rw [judgeLoop_incomplete hu' ?_, State.updLane_lane_eq]
        rcases hno with hlt | ⟨hf, hm⟩ | ⟨hf, hm⟩
        · refine .inl (Bool.eq_false_iff.2 fun hc => ?_)
          rw [hnext, spers, htime] at hc
          exact absurd ((runComplete_iff ..).1 hc) (by omega)
        · exact .inr (.inl ⟨hf, by rw [smode, hm]; decide⟩)
        · exact .inr (.inr ⟨hf, by rw [smode, hm]; decide⟩)
      rw [hx]
      exact ⟨smode, squeue, sctr⟩
  · have hcut := hothers j hj
    exact ⟨onlyCut_loopMode hcut, onlyCut_loopRun hcut, onlyCut_returnQueue hcut⟩

/-! ### Steering and adoption (R136, R137) -/

section service
variable {k : LaneId} {s : State}

/-- Every transmitter keeps its service from `s` to `t`. -/
def ServiceStays (s t : State) : Prop := ∀ j, ServiceKept (s.lane j) (t.lane j)

theorem ServiceStays.refl (s : State) : ServiceStays s s := fun _ => ⟨rfl, rfl⟩

theorem ServiceStays.trans {s t u : State} (h1 : ServiceStays s t) (h2 : ServiceStays t u) : ServiceStays s u := fun j =>
  ⟨(h2 j).1.trans (h1 j).1, (h2 j).2.trans (h1 j).2⟩

theorem serviceStays_updLane {f : Lane → Lane} (h : ∀ l, ServiceKept l (f l)) : ServiceStays s (s.updLane k f) :=
  Switching.serviceKept_updLane (h _)

theorem ServiceStays.updLane {u : State} {f : Lane → Lane} (h : ServiceStays s u) (hf : ∀ l, ServiceKept l (f l)) : ServiceStays s (u.updLane k f) :=
  h.trans (serviceStays_updLane hf)

/-- At a CAMPUS part a lane that becomes UP cuts nothing. -/
theorem setLaneState_up_service (hr : s.role = .campus) : ServiceStays s (setLaneState k .up s) := by
  unfold setLaneState
  split
  · exact ServiceStays.refl s
  · dsimp only
    rw [if_neg fun h => h.2 rfl, Switching.runArbiter_campus (s := reportDevice .lane (s.updLane k fun l => { l with state := .up })) hr]
    exact ServiceStays.trans (t := s.updLane k fun l => { l with state := .up }) (serviceStays_updLane fun _ => ⟨rfl, rfl⟩) fun _ => ⟨rfl, rfl⟩

theorem monitorBeacon_service (hr : s.role = .campus) : ServiceStays s (monitorBeacon k false s) := by
  rw [monitorBeacon_peer]
  have hmon : ServiceStays s (s.updLane k (monitored s false)) := serviceStays_updLane fun _ => ⟨rfl, rfl⟩
  split
  · exact hmon.trans (setLaneState_up_service hr)
  · exact hmon

theorem setLoopMode_service {m : LoopMode} {g : Lane → Lane} (hr : s.role = .campus) (hg : ∀ l, ServiceKept l (g l)) :
    ServiceStays s (reportDevice .loop (setLoopMode k m (s.updLane k g))) := by
  have hset : setLoopMode k m (s.updLane k g) = (s.updLane k g).updLane k fun l => { l with loopMode := m } := by
    unfold setLoopMode
    dsimp only
    split
    · exact Switching.runArbiter_campus (s := (s.updLane k g).updLane k fun l => { l with loopMode := m }) hr
    · rfl
  rw [hset]
  refine ServiceStays.trans (t := s.updLane k g) (serviceStays_updLane hg) ?_
  exact ServiceStays.trans (t := (s.updLane k g).updLane k fun l => { l with loopMode := m }) (serviceStays_updLane fun _ => ⟨rfl, rfl⟩) fun _ => ⟨rfl, rfl⟩

theorem judgeLoop_service {own : Bool} {f : LoopField} (hr : s.role = .campus) : ServiceStays s (judgeLoop k own f s) := by
  rcases judgeLoop_cases k own f s with ⟨run, h⟩ | ⟨run, -, h⟩ | ⟨run, -, h⟩ <;> rw [h]
  · exact serviceStays_updLane fun _ => ⟨rfl, rfl⟩
  · exact setLoopMode_service hr fun _ => ⟨rfl, rfl⟩
  · refine setLoopMode_service hr fun l => ⟨rfl, ?_⟩
    show ((withRun run l).count .loopOverrun l.returnQueue.length).ctr .lostOnSwitch = _
    rw [Lane.ctr_count, if_neg (by decide)]
    rfl

theorem noted_service (own : Bool) (c : BeaconContent) (l : Lane) : ServiceKept l (noted own c l) := by
  refine ⟨by cases own <;> rfl, ?_⟩
  rw [noted_ctr, if_neg (by cases own <;> decide), addCounter_zero]

theorem farFailStep_service {far : BitVec 5} (hr : s.role = .campus) : ServiceStays s (farFailStep far s) := by
  unfold farFailStep
  split
  · exact ServiceStays.refl s
  · rw [Switching.runArbiter_campus (s := s.updProt fun p => { p with farFail := far }) hr]
    exact fun _ => ⟨rfl, rfl⟩

theorem handed_service (k : LaneId) (octets : Nat) (own : Bool) (rest : List InItem) (s : State) : ServiceStays s (handed k octets own rest s) := fun j => by
  by_cases hj : j = k
  · subst hj
    obtain ⟨counters, h, hctr⟩ := handed_lane j octets own rest s
    exact ⟨by rw [h], hctr _ (by decide)⟩
  · rw [handed_lane_ne hj]
    exact ⟨rfl, rfl⟩

/-- At a CAMPUS part a peer-role beacon cuts nothing before the adoption run. -/
theorem arbitrated_service {c : BeaconContent} (hr : s.role = .campus) : ServiceStays s (arbitrated k false c s) := by
  have hmon : (monitorBeacon k false s).role = .campus := (monitorBeacon_staged k false s).role.trans hr
  have hheard : ServiceStays s (heard k false c s) :=
    (monitorBeacon_service hr).trans ((judgeLoop_service hmon).trans (serviceStays_updLane (noted_service false c)))
  rw [arbitrated_peer]
  exact hheard.trans (farFailStep_service ((heard_staged k false c s).role.trans hr))

end service

section guided
variable {k : LaneId} {s : State} {own : Bool} {c : BeaconContent}

theorem arbitrated_guidance (h : k ≠ 4 ∨ own = false) : guidance (arbitrated k own c s) = guidance s := by
  have hheard : guidance (heard k own c s) = guidance s := by
    show guidance (judgeLoop k own c.loop (monitorBeacon k own s)) = _
    rw [judgeLoop_guidance, monitorBeacon_guidance own h]
  cases own with
  | true => rw [arbitrated_own, hheard]
  | false => rw [arbitrated_peer, farFailStep_guidance, hheard]

theorem arbitrated_state (k : LaneId) (own : Bool) (c : BeaconContent) (s : State) :
    ((arbitrated k own c s).lane k).state = monitorState own (s.lane k) := by
  obtain ⟨-, -, hstate, -⟩ := heeded_fields k own c s
  rw [← hstate, onlyCut_state ((heeded_switched k own c s).1 k)]

theorem guidance_eq_iff {s t : State} : guidance t = guidance s ↔ t.prot.steering = s.prot.steering ∧ t.prot.echo = s.prot.echo ∧
    t.prot.candidate = s.prot.candidate ∧ t.prot.adoptCount = s.prot.adoptCount := by
  simp [guidance]

/-- L4's loss stays as it is when nothing but the adoption run is emptied behind it. -/
theorem standbyLost_then {a t : State} (h : StandbyLost s a) (hkept : ServiceStays a t) (hdev : t.agent.devices = a.agent.devices)
    (hsel : t.prot.selection = a.prot.selection) (hsteer : t.prot.steering = a.prot.steering) (hecho : t.prot.echo = a.prot.echo)
    (hrun : s.role = .campus → t.prot.candidate = none ∧ t.prot.adoptCount = 0) : StandbyLost s t := by
  obtain ⟨hrack, hcampus⟩ := h
  refine ⟨fun hr => ?_, fun hc => ?_⟩
  · obtain ⟨h1, h2, h3, h4⟩ := hrack hr
    exact ⟨hsteer.trans h1, hsel.trans h2, Switching.bridgingMoved_before h3 hkept, fun hm => by rw [hdev]; exact h4 hm⟩
  · obtain ⟨-, -, h3, h4, h5, h6⟩ := hcampus hc
    obtain ⟨hcand, hcount⟩ := hrun hc
    exact ⟨hcand, hcount, hecho.trans h3, Switching.bridgingMoved_before h4 hkept, fun he => hsteer.trans (h5 he),
      fun he => ⟨hsteer.trans (h6 he).1, by rw [hdev]; exact (h6 he).2⟩⟩

end guided

section ownRole
variable {k : LaneId} {s : State} {c : BeaconContent}

theorem clearAdoption_prot (s : State) : (clearAdoption s).prot = { s.prot with candidate := none, adoptCount := 0 } := rfl
theorem serviceStays_clearAdoption (s : State) : ServiceStays s (clearAdoption s) := fun _ => ⟨rfl, rfl⟩
theorem clearAdoption_agent (s : State) : (clearAdoption s).agent = s.agent := rfl

/-- An own-role beacon on L4 is not tracked by the loop control (R148). -/
theorem heard_own (k : LaneId) (c : BeaconContent) (s : State) :
    heard k true c s = (monitorBeacon k true s).updLane k fun l => noted true c (withRun none l) := by
  rw [heard, judgeLoop_untracked (.inr (.inr (.inr (.inl rfl)))), State.updLane_updLane]

theorem heeded_own_campus (hk : k = 4) (hr : s.role = .campus) : heeded k true c s = clearAdoption (heard k true c s) := by
  rw [heeded_own, arbitrated_own]
  exact if_pos ⟨hk, (heard_staged k true c s).role.trans hr⟩

theorem heeded_own_rack {k : LaneId} (hr : s.role = .rack) : heeded k true c s = heard k true c s := by
  rw [heeded_own, arbitrated_own]
  exact if_neg fun h => Role.noConfusion (((heard_staged k true c s).role.trans hr).symm.trans h.2)

/-- L4 becoming LOOPED by an own-role beacon: steering and selection, or echo and steering, are none (R131, R136, R137). -/
theorem standbyLost_ownBeacon {s0 : State} (hk : k = 4) (hstate : (s.lane k).state ≠ .looped) (hrole : s.role = s0.role) (hprot : s.prot = s0.prot)
    (hkept : ServiceStays s0 s) : StandbyLost s0 (heeded k true c s) := by
  have hlost : StandbyLost s0 (monitorBeacon k true s) := by
    obtain ⟨u, hu, -, hmoved, -⟩ := monitorTook k true s
    subst hu hk
    refine Switching.standbyLost_of_laneMoved (hmoved rfl hstate) ?_ hrole hprot ?_
    · rw [State.updLane_lane_eq]
      exact fun h => LaneState.noConfusion h
    · change ServiceStays s0 _
      refine (hkept.updLane ?_).updLane ?_
      · exact fun _ => ⟨rfl, rfl⟩
      · exact fun _ => ⟨rfl, rfl⟩
  have hnoted : ServiceStays (monitorBeacon k true s) (heard k true c s) := by
    rw [heard_own]
    exact serviceStays_updLane fun l => noted_service true c (withRun none l)
  have hprot' : (heard k true c s).prot = (monitorBeacon k true s).prot := by rw [heard_own]; rfl
  have hagent' : (heard k true c s).agent = (monitorBeacon k true s).agent := by rw [heard_own]; rfl
  cases hr : s.role with
  | rack =>
    rw [heeded_own_rack hr]
    refine standbyLost_then hlost hnoted (by rw [hagent']) (by rw [hprot']) (by rw [hprot']) (by rw [hprot']) fun hc => ?_
    rw [← hrole, hr] at hc
    cases hc
  | campus =>
    rw [heeded_own_campus hk hr]
    have hclear := clearAdoption_prot (heard k true c s)
    rw [hprot'] at hclear
    refine standbyLost_then hlost (hnoted.trans (serviceStays_clearAdoption _)) ?_ ?_ ?_ ?_ fun _ => ?_
    · rw [clearAdoption_agent, hagent']
    all_goals rw [hclear]
    exact ⟨rfl, rfl⟩

theorem heeded_own_looped {s0 : State} (hk : k = 4) (hstate : (s.lane k).state = .looped) (hprot : s.prot = s0.prot) :
    (heeded k true c s).prot.steering = s0.prot.steering ∧ (heeded k true c s).prot.echo = s0.prot.echo := by
  have hmonitor : (monitorBeacon k true s).prot = s0.prot := by
    obtain ⟨u, hu, hsame, -⟩ := monitorTook k true s
    rw [hsame rfl hstate, hu, ← hprot]
    rfl
  have hheard : (heard k true c s).prot = s0.prot := by rw [heard_own, ← hmonitor]; rfl
  cases hr : s.role with
  | rack => rw [heeded_own_rack hr, hheard]; exact ⟨rfl, rfl⟩
  | campus =>
    rw [heeded_own_campus hk hr, clearAdoption_prot, hheard]
    exact ⟨rfl, rfl⟩

end ownRole

section peerRole
variable {k : LaneId} {s : State} {c : BeaconContent}

/-- A beacon on a working lane, one on an L4 that is not UP, and one of this part's own role guide nothing (R136, R137; log 35). -/
theorem heeded_guidance_kept {own : Bool} (h : k ≠ 4 ∨ own = false ∧ (monitorState false (s.lane k) ≠ .up ∨ c.sender = s.role)) :
    guidance (heeded k own c s) = guidance s := by
  have harb : guidance (arbitrated k own c s) = guidance s := arbitrated_guidance (h.imp id And.left)
  rw [← harb]
  cases own with
  | true =>
    rw [heeded_own, ownBeacon, if_neg fun e => (h.resolve_right fun e => Bool.noConfusion e.1) e.1]
  | false =>
    rw [heeded_peer]
    rcases steerStep_cases k c (arbitrated k false c s) with ⟨hk, hup, hr, hs, -⟩ | ⟨hk, hup, hr, hs, -⟩ | ⟨-, hsame⟩
    · subst hk
      rw [arbitrated_state] at hup
      rw [(arbitrated_staged 4 false c s).role] at hr
      obtain ⟨-, h⟩ := h.resolve_left (not_not.2 rfl)
      exact absurd (hs.symm.trans ((h.resolve_left (not_not.2 hup)).trans hr)) (by decide)
    · subst hk
      rw [arbitrated_state] at hup
      rw [(arbitrated_staged 4 false c s).role] at hr
      obtain ⟨-, h⟩ := h.resolve_left (not_not.2 rfl)
      exact absurd (hs.symm.trans ((h.resolve_left (not_not.2 hup)).trans hr)) (by decide)
    · rw [hsame]

theorem heeded_steers (hk : k = 4) (hup : monitorState false (s.lane k) = .up) (hr : s.role = .rack) (hs : c.sender = .campus) :
    heeded k false c s = setSteering c.echo (arbitrated k false c s) := by
  rw [heeded_peer]
  have hrole := (arbitrated_staged k false c s).role.trans hr
  rcases steerStep_cases k c (arbitrated k false c s) with ⟨-, -, -, -, h⟩ | ⟨-, -, hc, -, -⟩ | ⟨h, -⟩
  · exact h
  · rw [hrole] at hc
    cases hc
  · rw [← hk, arbitrated_state, hrole, hs] at h
    exact absurd ((h.resolve_left (not_not.2 rfl)).resolve_left (not_not.2 hup)) (by decide)

theorem heeded_adopts (hk : k = 4) (hup : monitorState false (s.lane k) = .up) (hr : s.role = .campus) (hs : c.sender = .rack) :
    heeded k false c s = judgeAdoption c.bridgedLane (arbitrated k false c s) := by
  rw [heeded_peer]
  have hrole := (arbitrated_staged k false c s).role.trans hr
  rcases steerStep_cases k c (arbitrated k false c s) with ⟨-, -, hc, -, -⟩ | ⟨-, -, -, -, h⟩ | ⟨h, -⟩
  · rw [hrole] at hc
    cases hc
  · exact h
  · rw [← hk, arbitrated_state, hrole, hs] at h
    exact absurd ((h.resolve_left (not_not.2 rfl)).resolve_left (not_not.2 hup)) (by decide)

/-- What the steering of a RACK part takes from a beacon of L4 (R136). -/
theorem steered_rack {s0 : State} (hk : k = 4) (hup : monitorState false (s.lane k) = .up) (hr : s.role = .rack) (hs : c.sender = .campus) (hprot : s.prot = s0.prot) :
    (heeded k false c s).prot.steering = c.echo ∧ (s0.prot.steering ≠ c.echo → (heeded k false c s).agent.devices.getLsbD 1 = true) ∧
    (heeded k false c s).prot.echo = s0.prot.echo ∧ (heeded k false c s).prot.candidate = s0.prot.candidate ∧
    (heeded k false c s).prot.adoptCount = s0.prot.adoptCount := by
  obtain ⟨hsteer, hecho, hcand, hcount⟩ := guidance_eq_iff.1 (arbitrated_guidance (k := k) (own := false) (c := c) (s := s) (.inr rfl))
  rw [hprot] at hsteer hecho hcand hcount
  have hset := heeded_steers hk hup hr hs
  rw [hset, setSteering_prot]
  refine ⟨rfl, fun hne => ?_, hecho, hcand, hcount⟩
  rw [setSteering, if_neg (by rw [hsteer]; exact hne)]
  exact Switching.protect_bit _

theorem adoptionRun_prot (v : Option PortId) (s : State) :
    (adoptionRun v s).prot = { s.prot with candidate := v, adoptCount := adoptionCount v s } := rfl

/-- What the adoption run of a CAMPUS part takes from a beacon of L4 (R137). -/
theorem steered_campus {s0 : State} (hk : k = 4) (hup : monitorState false (s.lane k) = .up) (hr : s.role = .campus) (hs : c.sender = .rack) (hprot : s.prot = s0.prot)
    (hkept : ServiceStays s0 s) : ∃ count, count = (if c.bridgedLane = s0.prot.candidate then min 3 (s0.prot.adoptCount + 1) else 1) ∧
    (heeded k false c s).prot.candidate = c.bridgedLane ∧ (heeded k false c s).prot.adoptCount = count ∧
    BridgingMoved s0.prot.echo (heeded k false c s).prot.echo s0 (heeded k false c s) ∧
    (count = 3 ∧ c.bridgedLane ≠ s0.prot.echo → (heeded k false c s).prot.echo = c.bridgedLane ∧ (heeded k false c s).prot.steering = c.bridgedLane ∧
      (heeded k false c s).agent.devices.getLsbD 1 = true) ∧
    (count ≠ 3 ∨ c.bridgedLane = s0.prot.echo →
      (heeded k false c s).prot.echo = s0.prot.echo ∧ (heeded k false c s).prot.steering = s0.prot.steering) := by
  obtain ⟨hsteer, hecho, hcand, hcount⟩ := guidance_eq_iff.1 (arbitrated_guidance (k := k) (own := false) (c := c) (s := s) (.inr rfl))
  rw [hprot] at hsteer hecho hcand hcount
  obtain ⟨-, hbridge, -⟩ := steered_heeded k false c s
  rw [hecho] at hbridge
  have hmoved := Switching.bridgingMoved_after (hkept.trans (arbitrated_service (k := k) (c := c) hr)) hbridge
  have hjudged := heeded_adopts hk hup hr hs
  rw [judgeAdoption_eq, hecho] at hjudged
  refine ⟨adoptionCount c.bridgedLane (arbitrated k false c s), by rw [adoptionCount, hcand, hcount], ?_, ?_, hmoved, fun h => ?_, fun h => ?_⟩
  · rw [hjudged]
    split
    · rw [adopt_prot]; rfl
    · rfl
  · rw [hjudged]
    split
    · rw [adopt_prot]; rfl
    · rfl
  · rw [hjudged, if_pos h, adopt_prot, Switching.adopt_devices]
    exact ⟨rfl, rfl, Switching.protect_bit _⟩
  · rw [hjudged, if_neg fun e => h.elim (absurd e.1) fun h => e.2 h, adoptionRun_prot]
    exact ⟨hecho, hsteer⟩

end peerRole

section taken
variable {k : LaneId} {s : State} {octets : Nat} {own : Bool} {rest : List InItem} {c : BeaconContent}

/-- When the monitor leaves the lane UP at a peer-role beacon (R128). -/
theorem monitorState_handed : monitorState false ((handed k octets own rest s).lane k) = .up ↔
    (s.lane k).state = .up ∨ min 3 ((s.lane k).peerRun + 1) = 3 := by
  obtain ⟨hstate, hrun, -⟩ := handed_fields k octets own rest s
  rw [monitorState, if_neg Bool.false_ne_true, hrun, hstate]
  split
  · next h => exact ⟨fun _ => .inr h, fun _ => rfl⟩
  · next h => exact ⟨.inl, fun e => e.resolve_right h⟩

theorem taken_guidance_kept (h : k ≠ 4 ∨ own = false ∧
    (¬ (own = false ∧ ((s.lane k).state = .up ∨ min 3 ((s.lane k).peerRun + 1) = 3)) ∨ c.sender = s.role)) :
    guidance (heeded k own c (handed k octets own rest s)) = guidance s := by
  obtain ⟨hprot, -, -, hrole⟩ := handed_frame (k := k) (s := s) (octets := octets) (own := own) (rest := rest)
  have hbefore : guidance (handed k octets own rest s) = guidance s := congrArg (fun p : Protection => (p.steering, p.echo, p.candidate, p.adoptCount)) hprot
  rw [heeded_guidance_kept (h.imp id fun ⟨ho, h⟩ => ⟨ho, h.imp ?_ ?_⟩), hbefore]
  · exact fun hno hm => hno ⟨ho, monitorState_handed.1 hm⟩
  · exact fun e => by rw [hrole]; exact e

end taken

/-- Settles O26: steering, echo and adoption run at a beacon, by the part's role, and at the three ways of losing L4. -/
theorem steeringAndAdoption : Obligations.SteeringAndAdoption := by
  refine ⟨fun k s c payload origin own octets rest hline hparse hlos hlane hm => ?_, fun s hpin hlos => ?_, fun s r htimer hdue hstate => ?_⟩
  · obtain ⟨hprot, -, -, hrole⟩ := handed_frame (k := k) (s := s) (octets := octets) (own := own) (rest := rest)
    have hkept := handed_service k octets own rest s
    refine ⟨_, own = false ∧ ((s.lane k).state = .up ∨ min 3 ((s.lane k).peerRun + 1) = 3), exec_taken hline hparse hlos hlane hm, Iff.rfl,
      fun h => ?_, fun hk h hr hs => ?_, fun hk h hr hs => ?_, fun hk ho => ?_⟩
    · exact guidance_eq_iff.1 (taken_guidance_kept h)
    · obtain ⟨rfl, hup⟩ := h
      exact steered_rack hk (monitorState_handed.2 hup) (hrole.trans hr) hs hprot
    · obtain ⟨rfl, hup⟩ := h
      exact steered_campus hk (monitorState_handed.2 hup) (hrole.trans hr) hs hprot hkept
    · subst ho
      obtain ⟨hstate, -⟩ := handed_fields k octets true rest s
      refine ⟨fun hne => ?_, fun hloop => ?_, fun hr => ?_⟩
      · exact standbyLost_ownBeacon hk (by rw [hstate, hk]; exact hne) hrole hprot hkept
      · exact heeded_own_looped hk (by rw [hstate, hk]; exact hloop) hprot
      · rw [heeded_own_campus hk (hrole.trans hr), clearAdoption_prot]
        exact ⟨rfl, rfl⟩
  · obtain ⟨t, u, hexec, -, hu, -, hmoved, hst, -⟩ := LaneUnits.losPinAndTime.1.1 4 s hpin
    refine ⟨t, hexec, hst, Switching.standbyLost_of_laneMoved (hmoved hlos) ?_ ?_ ?_ ?_⟩
    · rw [hu, State.updLane_lane_eq]
      exact fun h => LaneState.noConfusion h
    · rw [hu]; rfl
    · rw [hu]; rfl
    · rw [hu]
      exact serviceStays_updLane (s := { s with pins := t.pins }) fun _ => ⟨rfl, rfl⟩
  · obtain ⟨s1, hs1, -, hmoved⟩ := LaneUnits.laneTimersExpire.1 4 s r htimer hdue
    obtain ⟨t, hexec, hlost, hst, -⟩ := hmoved hstate
    subst hs1
    refine ⟨t, hexec, hst, Switching.standbyLost_of_laneMoved hlost ?_ rfl rfl ?_⟩
    · rw [State.updLane_lane_eq]
      exact fun h => LaneState.noConfusion h
    · change ServiceStays s _
      refine ((ServiceStays.refl s).updLane ?_).updLane ?_
      · exact fun _ => ⟨rfl, rfl⟩
      intro l
      refine ⟨rfl, ?_⟩
      show (l.count .continuityLosses).ctr .lostOnSwitch = _
      rw [Lane.ctr_count, if_neg (by decide)]

end Sys2Proof.BeaconStatements
end

section
/-! The directives of channels and of the outbound switch (R17, R19, R30 to R33, R93, R98, R99, R101, R177). -/

namespace Sys2Proof.ChannelSettings
open Sys2Proof.Machine Sys2Proof.Safety

/-- A directive that ends, from what it answers to the state of which it was taken. -/
theorem directive_ends {i : Instr} {code : Byte} {ops data : List Byte} {o : DirOutcome} {s t : State} (hdir : directiveOf i = some (code, ops))
    (hready : Ready code ops s) (h : perform (lastFlag s) ⟨code, ops⟩ (taken s) = .ended o data t) : exec i s = .next (ended code o data t) := by
  rw [Agents.exec_directive s hdir, takeDirective_ended hready h]

/-- A directive that begins an operation. -/
theorem directive_begins {i : Instr} {code : Byte} {ops : List Byte} {s t : State} (hdir : directiveOf i = some (code, ops))
    (hready : Ready code ops s) (h : perform (lastFlag s) ⟨code, ops⟩ (taken s) = .begun t) : exec i s = .next (settle t) := by
  rw [Agents.exec_directive s hdir, takeDirective_begun hready h]

/-! ### The outbound switch (R98, R99, R101) -/

section switches
variable {ops : List Byte} {s : State} {c : Chan}

theorem dirSwitchNow_format (h : ops.length ≠ 2) : dirSwitchNow ops s = dirRefused .format s := if_pos h

theorem dirSwitchNow_range (hlen : ops.length = 2) (h : 1024 ≤ numAt ops 0 2) : dirSwitchNow ops s = dirRefused .range s := by
  unfold dirSwitchNow
  rw [if_neg (not_not.2 hlen), chanOf_ge h]

theorem dirSwitchNow_chan (hlen : ops.length = 2) (hc : c.val = numAt ops 0 2) : dirSwitchNow ops s =
    if (s.chan c).isOpen = false ∨ switchMade (s.chan c) = false then dirRefused .state s
    else dirDone ([BitVec.ofNat 8 (letterCode (switchTarget (s.chan c))), ((s.chan c).outSlot (switchTarget (s.chan c))).epoch.getD 0] ++ beBytes 8 s.time.toNat)
      (reportChan c (kindBit .switched) (s.updChan c (makeSwitch s.time))) := by
  unfold dirSwitchNow
  rw [if_neg (not_not.2 hlen), chanOf_val hc]

theorem letterByte_eq (x : Letter) : BitVec.ofNat 8 (letterCode x) = if x = .a then 0 else 1 := by cases x <;> rfl

theorem dirSwitchAt_format (h : ops.length ≠ 10) : dirSwitchAt ops s = dirRefused .format s := if_pos h

theorem dirSwitchAt_range (hlen : ops.length = 10) (h : 1024 ≤ numAt ops 0 2) : dirSwitchAt ops s = dirRefused .range s := by
  unfold dirSwitchAt
  rw [if_neg (not_not.2 hlen), chanOf_ge h]

theorem dirSwitchAt_chan {t : Time} (hlen : ops.length = 10) (hc : c.val = numAt ops 0 2) (ht : t.toNat = numAt ops 2 8) : dirSwitchAt ops s =
    if (s.chan c).isOpen = false then dirRefused .state s
    else if s.time < t then dirDone (beBytes 8 t.toNat ++ [0]) (s.updChan c fun ch => { ch with schedule := some t })
    else dirDone (beBytes 8 s.time.toNat ++ [flagByte (switchMade (s.chan c))]) (scheduledSwitch c (s.updChan c fun ch => { ch with schedule := none })) := by
  have htime : BitVec.ofNat 64 (numAt ops 2 8) = t := by
    rw [← ht, BitVec.ofNat_toNat]
    exact BitVec.setWidth_eq t
  unfold dirSwitchAt
  rw [if_neg (not_not.2 hlen), chanOf_val hc, htime]
  dsimp only
  rw [State.updChan_chan_eq, Waiting.switchMade_schedule]

theorem dirSwitchCancel_format (h : ops.length ≠ 2) : dirSwitchCancel ops s = dirRefused .format s := if_pos h

theorem dirSwitchCancel_range (hlen : ops.length = 2) (h : 1024 ≤ numAt ops 0 2) : dirSwitchCancel ops s = dirRefused .range s := by
  unfold dirSwitchCancel
  rw [if_neg (not_not.2 hlen), chanOf_ge h]

theorem dirSwitchCancel_chan (hlen : ops.length = 2) (hc : c.val = numAt ops 0 2) :
    dirSwitchCancel ops s = dirDone (timeOrZero (s.chan c).schedule) (s.updChan c fun ch => { ch with schedule := none }) := by
  unfold dirSwitchCancel
  rw [if_neg (not_not.2 hlen), chanOf_val hc]

theorem timeOrZero_eq (t : Option Time) : timeOrZero t = beBytes 8 ((t.map (·.toNat)).getD 0) := by cases t <;> rfl

end switches

/-- Settles O38: each directive by its refusals and its effect. -/
theorem switchDirectives : Obligations.SwitchDirectives := by
  refine ⟨fun ops s hready => ⟨fun h => ?_, fun hlen h => ?_, fun c hlen hc => ⟨fun h => ?_, fun x e hopen hmade hx he => ?_⟩⟩,
    fun ops s hready => ⟨fun h => ?_, fun hlen h => ?_, fun c t hlen hc ht => ⟨fun h => ?_, fun hopen hlt => ?_, fun hopen hle hmade => ?_,
      fun hopen hle hmissed => ?_⟩⟩, fun ops s hready => ⟨fun h => ?_, fun hlen h => ?_, fun c hlen hc => ?_⟩⟩
  · exact directive_ends rfl hready (dirSwitchNow_format h)
  · exact directive_ends rfl hready (dirSwitchNow_range hlen h)
  · exact directive_ends rfl hready ((dirSwitchNow_chan hlen hc).trans (if_pos h))
  · refine directive_ends rfl hready ((dirSwitchNow_chan hlen hc).trans ((if_neg ?_).trans ?_))
    · rw [taken_chan, hopen, hmade]
      decide
    · rw [taken_chan, ← hx, he, letterByte_eq, reportChan_kindBit]
      rfl
  · exact directive_ends rfl hready (dirSwitchAt_format h)
  · exact directive_ends rfl hready (dirSwitchAt_range hlen h)
  · exact directive_ends rfl hready ((dirSwitchAt_chan hlen hc ht).trans (if_pos h))
  · exact directive_ends rfl hready ((dirSwitchAt_chan hlen hc ht).trans ((if_neg (Bool.not_eq_false _ ▸ hopen)).trans (if_pos hlt)))
  · refine directive_ends rfl hready ((dirSwitchAt_chan hlen hc ht).trans ((if_neg ?_).trans ((if_neg ?_).trans ?_)))
    · rw [taken_chan, hopen]
      decide
    · rw [taken_time]
      exact BitVec.not_lt.2 hle
    · rw [taken_chan, hmade, Waiting.scheduledSwitch_removed (s := taken s) hmade]
      rfl
  · refine directive_ends rfl hready ((dirSwitchAt_chan hlen hc ht).trans ((if_neg ?_).trans ((if_neg ?_).trans ?_)))
    · rw [taken_chan, hopen]
      decide
    · rw [taken_time]
      exact BitVec.not_lt.2 hle
    · rw [taken_chan, hmissed, Waiting.scheduledSwitch_missed]
      · rfl
      · rw [State.updChan_chan_eq, Waiting.switchMade_schedule, taken_chan, hmissed]
  · exact directive_ends rfl hready (dirSwitchCancel_format h)
  · exact directive_ends rfl hready (dirSwitchCancel_range hlen h)
  · rw [← timeOrZero_eq]
    exact directive_ends rfl hready (dirSwitchCancel_chan hlen hc)

/-! ### Field lists (R177, 12.4.2) -/

section fields
variable {layout : List (Nat × Nat)} {bytes : List Byte} {fs : FieldList}

/-- A layout of 12.4.2: no number twice, each of one byte. -/
def LayoutOk (layout : List (Nat × Nat)) : Prop := (layout.map Prod.fst).Nodup ∧ ∀ p ∈ layout, p.1 < 256

theorem layouts_ok : ∀ layout ∈ [configFields, entryFields, portFields, laneFields, loopFields, testFields], LayoutOk layout := by
  unfold LayoutOk
  decide

theorem fieldList_iff_mem (h : LayoutOk layout) : fieldList layout bytes = some fs ↔
    bytes = fs.flatMap (fun f => BitVec.ofNat 8 f.1 :: f.2) ∧ (∀ f ∈ fs, (f.1, f.2.length) ∈ layout) ∧ (fs.map Prod.fst).Nodup := by
  obtain ⟨hnodup, hbyte⟩ := h
  have hfield : ∀ f : Nat × List Byte, (f.1 < 256 ∧ layout.lookup f.1 = some f.2.length) ↔ (f.1, f.2.length) ∈ layout := fun f => by
    rw [lookup_iff layout hnodup]
    exact ⟨And.right, fun hf => ⟨hbyte _ hf, hf⟩⟩
  rw [fieldList_iff, and_assoc]
  simp only [hfield]

theorem fieldList_nodup (h : fieldList layout bytes = some fs) : (fs.map Prod.fst).Nodup := ((fieldList_iff ..).1 h).2

theorem fieldBytes_iff (h : fieldList layout bytes = some fs) (i : Nat) (b : List Byte) : fieldBytes fs i = some b ↔ (i, b) ∈ fs :=
  lookup_iff fs (fieldList_nodup h) i b

theorem given_iff (h : fieldList layout bytes = some fs) (i : Nat) : given fs i = true ↔ ∃ b, (i, b) ∈ fs := by
  simp only [← fieldBytes_iff h]
  exact Option.isSome_iff_exists

theorem fieldNat_iff (h : fieldList layout bytes = some fs) (i v : Nat) : fieldNat fs i = some v ↔ ∃ b, (i, b) ∈ fs ∧ v = numAt b 0 b.length := by
  have hnum : ∀ b : List Byte, numAt b 0 b.length = beNat b := fun b => by simp [numAt, slice]
  simp only [← fieldBytes_iff h, hnum, fieldNat, fieldBytes, Option.map_eq_some_iff, eq_comm]

theorem flagInRange_iff (fs : FieldList) (i : Nat) : flagInRange fs i = true ↔ ∀ v, fieldNat fs i = some v → v ≤ 1 := by
  unfold flagInRange
  cases fieldNat fs i <;> simp

theorem fieldAtMost_iff (fs : FieldList) (i bound : Nat) : fieldAtMost fs i bound = true ↔ ∀ v, fieldNat fs i = some v → v ≤ bound := by
  unfold fieldAtMost
  cases fieldNat fs i <;> simp

end fields

/-! ### CHAN-OPEN, CHAN-SET and CHAN-CLOSE (R30 to R33) -/

section config
variable {ops : List Byte} {s : State} {c : Chan} {fs : FieldList}

theorem flagField_eq (fs : FieldList) (i : Nat) (now : Bool) : flagField fs i now = ((fieldNat fs i).map (· != 0)).getD now := by
  unfold flagField
  cases fieldNat fs i <;> rfl

theorem configWith_window (fs : FieldList) (base : ChanConfig) : (configWith fs base).window = ((fieldNat fs 1).map (min · 1024)).getD base.window := by
  unfold configWith
  cases fieldNat fs 1 <;> rfl

theorem configWith_softLimit (fs : FieldList) (base : ChanConfig) : (configWith fs base).softLimit = ((fieldNat fs 2).map (max · 1)).getD base.softLimit := by
  unfold configWith
  cases fieldNat fs 2 <;> rfl

theorem configWith_auto (fs : FieldList) (base : ChanConfig) : (configWith fs base).auto = ((fieldNat fs 3).map (· != 0)).getD base.auto :=
  flagField_eq fs 3 base.auto

theorem configWith_grace (fs : FieldList) (base : ChanConfig) : (configWith fs base).grace = (fieldNat fs 4).getD base.grace := rfl

theorem configWith_returnCheck (fs : FieldList) (base : ChanConfig) : (configWith fs base).returnCheck = ((fieldNat fs 5).map (· != 0)).getD base.returnCheck :=
  flagField_eq fs 5 base.returnCheck

/-- The complete config of an opened channel (R19, R30). -/
theorem configWith_cold (fs : FieldList) : (configWith fs ChanConfig.cold).window = min ((fieldNat fs 1).getD 256) 1024 ∧
    (configWith fs ChanConfig.cold).softLimit = max ((fieldNat fs 2).getD (2 ^ 47)) 1 ∧
    (configWith fs ChanConfig.cold).auto = ((fieldNat fs 3).getD 1 != 0) ∧ (configWith fs ChanConfig.cold).grace = (fieldNat fs 4).getD 2000 ∧
    (configWith fs ChanConfig.cold).returnCheck = ((fieldNat fs 5).getD 0 != 0) := by
  refine ⟨?_, ?_, ?_, rfl, ?_⟩
  · rw [configWith_window]
    cases fieldNat fs 1 <;> rfl
  · rw [configWith_softLimit]
    cases fieldNat fs 2 <;> rfl
  · rw [configWith_auto]
    cases fieldNat fs 3 <;> rfl
  · rw [configWith_returnCheck]
    cases fieldNat fs 5 <;> rfl

theorem not_open_range (hge : 2 ≤ c.val) (h3 : flagInRange fs 3 = true) (h5 : flagInRange fs 5 = true) :
    ¬ (c.val < 2 ∨ flagInRange fs 3 = false ∨ flagInRange fs 5 = false) := by
  rw [h3, h5]
  rintro (hlt | hflag | hflag)
  · exact absurd hlt (by omega)
  · cases hflag
  · cases hflag

theorem dirChanOpen_format (h : ops.length < 2 ∨ fieldList configFields (ops.drop 2) = none) : dirChanOpen ops s = dirRefused .format s := by
  unfold dirChanOpen
  split
  · rfl
  · next hlen => rw [h.resolve_left hlen]

theorem dirChanOpen_none (hlen : 2 ≤ ops.length) (hfs : fieldList configFields (ops.drop 2) = some fs) (h : 1024 ≤ numAt ops 0 2) :
    dirChanOpen ops s = dirRefused .range s := by
  unfold dirChanOpen
  rw [if_neg (by omega), hfs, chanOf_ge h]

theorem dirChanOpen_chan (hlen : 2 ≤ ops.length) (hfs : fieldList configFields (ops.drop 2) = some fs) (hc : c.val = numAt ops 0 2) :
    dirChanOpen ops s = if c.val < 2 ∨ flagInRange fs 3 = false ∨ flagInRange fs 5 = false then dirRefused .range s
      else if (s.chan c).isOpen then dirRefused .state s
      else dirDone (configBytes (configWith fs ChanConfig.cold)) (s.updChan c fun ch =>
        { ch with isOpen := true, config := configWith fs ChanConfig.cold, counters := Vector.replicate 13 0 }) := by
  unfold dirChanOpen
  rw [if_neg (by omega), hfs, chanOf_val hc]

/-- A channel number below 1024 has its channel (R17). -/
theorem chan_of_lt {n : Nat} (h : ¬ 1024 ≤ n) : ∃ c : Chan, c.val = n := ⟨⟨n, by omega⟩, rfl⟩

theorem dirChanOpen_range (hlen : 2 ≤ ops.length) (hfs : fieldList configFields (ops.drop 2) = some fs)
    (h : numAt ops 0 2 < 2 ∨ 1024 ≤ numAt ops 0 2 ∨ flagInRange fs 3 = false ∨ flagInRange fs 5 = false) :
    dirChanOpen ops s = dirRefused .range s := by
  by_cases hge : 1024 ≤ numAt ops 0 2
  · exact dirChanOpen_none hlen hfs hge
  · obtain ⟨c, hc⟩ := chan_of_lt hge
    rw [dirChanOpen_chan hlen hfs hc, if_pos]
    rw [hc]
    exact h.imp id fun h => h.resolve_left hge

theorem dirChanSet_format (h : ops.length < 2 ∨ fieldList configFields (ops.drop 2) = none) : dirChanSet ops s = dirRefused .format s := by
  unfold dirChanSet
  split
  · rfl
  · next hlen => rw [h.resolve_left hlen]

/-- A channel after CHAN-SET (R31, R32). -/
def configured (cfg : ChanConfig) (ch : Channel) : Channel :=
  if cfg.window = ch.config.window then { ch with config := cfg }
  else { ch with config := cfg, inA := remarkSlot cfg.window ch.inA, inB := remarkSlot cfg.window ch.inB }

theorem dirChanSet_chan (hlen : 2 ≤ ops.length) (hfs : fieldList configFields (ops.drop 2) = some fs) (hc : c.val = numAt ops 0 2) :
    dirChanSet ops s = if flagInRange fs 3 = false ∨ flagInRange fs 5 = false then dirRefused .range s
      else if (s.chan c).isOpen = false then dirRefused .state s
      else dirDone (configBytes (configWith fs (s.chan c).config)) (s.updChan c (configured (configWith fs (s.chan c).config))) := by
  unfold dirChanSet
  rw [if_neg (by omega), hfs, chanOf_val hc]
  rfl

theorem dirChanSet_range (hlen : 2 ≤ ops.length) (hfs : fieldList configFields (ops.drop 2) = some fs)
    (h : 1024 ≤ numAt ops 0 2 ∨ flagInRange fs 3 = false ∨ flagInRange fs 5 = false) : dirChanSet ops s = dirRefused .range s := by
  by_cases hge : 1024 ≤ numAt ops 0 2
  · unfold dirChanSet
    rw [if_neg (by omega), hfs, chanOf_ge hge]
  · obtain ⟨c, hc⟩ := chan_of_lt hge
    rw [dirChanSet_chan hlen hfs hc, if_pos (h.resolve_left hge)]

theorem configured_frame (cfg : ChanConfig) (ch : Channel) :
    configured cfg ch = { ch with config := cfg, inA := (configured cfg ch).inA, inB := (configured cfg ch).inB } := by
  unfold configured
  split <;> rfl

theorem configured_inSlot (cfg : ChanConfig) (ch : Channel) (x : Letter) :
    (configured cfg ch).inSlot x = if cfg.window = ch.config.window then ch.inSlot x else remarkSlot cfg.window (ch.inSlot x) := by
  unfold configured
  split <;> cases x <;> rfl

/-- The whole window below a top (R32). -/
theorem mem_remark {w top q : Nat} : q ∈ remark w top ↔ 1 ≤ q ∧ q ≤ top ∧ top < q + w := by
  unfold remark
  split
  · simp only [List.not_mem_nil, false_iff]
    omega
  · simp only [List.mem_range'_1]
    omega

theorem configured_slot (cfg : ChanConfig) (ch : Channel) (x : Letter) :
    (cfg.window = ch.config.window ∨ (ch.inSlot x).state = .empty → (configured cfg ch).inSlot x = ch.inSlot x) ∧
    (cfg.window ≠ ch.config.window → (ch.inSlot x).state ≠ .empty →
      (configured cfg ch).inSlot x = { ch.inSlot x with marks := ((configured cfg ch).inSlot x).marks } ∧
      ∀ q, q ∈ ((configured cfg ch).inSlot x).marks ↔ 1 ≤ q ∧ q ≤ (ch.inSlot x).top ∧ (ch.inSlot x).top < q + cfg.window) := by
  rw [configured_inSlot]
  refine ⟨fun h => ?_, fun hw hs => ?_⟩
  · split
    · rfl
    · next hw => exact if_pos (h.resolve_left hw)
  · rw [if_neg hw, remarkSlot, if_neg hs]
    exact ⟨rfl, fun q => mem_remark⟩

theorem dirChanClose_format (h : ops.length ≠ 2) : dirChanClose ops s = dirRefused .format s := if_pos h

/-- A channel after CHAN-CLOSE (R33). -/
def closed (ch : Channel) : Channel :=
  { ch with isOpen := false, schedule := none, outA := closeOut ch.outA, outB := closeOut ch.outB, inA := emptyIn ch.inA, inB := emptyIn ch.inB }

theorem dirChanClose_chan (hlen : ops.length = 2) (hc : c.val = numAt ops 0 2) : dirChanClose ops s =
    if c.val < 2 then dirRefused .range s else if (s.chan c).isOpen then dirDone [] (s.updChan c closed) else dirDone [] s := by
  unfold dirChanClose
  rw [if_neg (not_not.2 hlen), chanOf_val hc]
  rfl

theorem dirChanClose_range (hlen : ops.length = 2) (h : numAt ops 0 2 < 2 ∨ 1024 ≤ numAt ops 0 2) : dirChanClose ops s = dirRefused .range s := by
  by_cases hge : 1024 ≤ numAt ops 0 2
  · unfold dirChanClose
    rw [if_neg (not_not.2 hlen), chanOf_ge hge]
  · obtain ⟨c, hc⟩ := chan_of_lt hge
    rw [dirChanClose_chan hlen hc, if_pos (by omega)]

theorem inCleared_emptyIn (i : InSlot) : InCleared (emptyIn i) := ⟨rfl, rfl, rfl, rfl, rfl, rfl, rfl, rfl, rfl⟩
theorem outCleared_emptyOut (o : OutSlot) : OutCleared (emptyOut o) := ⟨rfl, rfl, rfl, rfl, rfl, rfl, rfl, rfl⟩

theorem closed_inSlot (ch : Channel) (x : Letter) : (closed ch).inSlot x = emptyIn (ch.inSlot x) := by cases x <;> rfl
theorem closed_outSlot (ch : Channel) (x : Letter) : (closed ch).outSlot x = closeOut (ch.outSlot x) := by cases x <;> rfl

theorem closed_slots (ch : Channel) (x : Letter) : InCleared ((closed ch).inSlot x) ∧ ((closed ch).inSlot x).load = (ch.inSlot x).load ∧
    ((closed ch).inSlot x).inFlight = (ch.inSlot x).inFlight ∧ ((ch.outSlot x).state = .draining → (closed ch).outSlot x = ch.outSlot x) ∧
    ((ch.outSlot x).state ≠ .draining → OutCleared ((closed ch).outSlot x) ∧ ((closed ch).outSlot x).load = (ch.outSlot x).load ∧
      ((closed ch).outSlot x).inFlight = (ch.outSlot x).inFlight) := by
  rw [closed_inSlot, closed_outSlot]
  refine ⟨inCleared_emptyIn _, rfl, rfl, fun h => if_pos h, fun h => ?_⟩
  rw [closeOut, if_neg h]
  exact ⟨outCleared_emptyOut _, rfl, rfl⟩

end config

/-- Settles O36: field lists, then each directive by its refusals and its effect. -/
theorem channelDirectives : Obligations.ChannelDirectives := by
  refine ⟨⟨rfl, rfl, rfl, rfl, rfl, rfl, fun layout hlayout bytes fs => ⟨fieldList_iff_mem (layouts_ok layout hlayout), fun h i =>
      ⟨fieldBytes_iff h i, given_iff h i, fieldNat_iff h i, flagInRange_iff fs i, fieldAtMost_iff fs i⟩⟩⟩, fun cfg => rfl,
    fun ops s hready => ⟨fun h => ?_, fun fs hlen hfs => ⟨fun h => ?_, fun c hc hge h3 h5 => ⟨fun h => ?_, fun h => ?_⟩⟩⟩,
    fun ops s hready => ⟨fun h => ?_, fun fs hlen hfs => ⟨fun h => ?_, fun c hc h3 h5 => ⟨fun h => ?_, fun h => ?_⟩⟩⟩,
    fun ops s hready => ⟨fun h => ?_, fun hlen h => ?_, fun c hlen hc hge => ⟨fun h => ?_, fun h => ?_⟩⟩⟩
  · exact directive_ends rfl hready (dirChanOpen_format h)
  · exact directive_ends rfl hready (dirChanOpen_range hlen hfs h)
  · exact directive_ends rfl hready ((dirChanOpen_chan hlen hfs hc).trans ((if_neg (not_open_range hge h3 h5)).trans (if_pos h)))
  · obtain ⟨hwindow, hsoft, hauto, hgrace, hreturn⟩ := configWith_cold fs
    refine ⟨_, hwindow, hsoft, hauto, hgrace, hreturn,
      directive_ends rfl hready ((dirChanOpen_chan hlen hfs hc).trans ((if_neg (not_open_range hge h3 h5)).trans (if_neg ?_)))⟩
    rw [taken_chan, h]
    decide
  · exact directive_ends rfl hready (dirChanSet_format h)
  · exact directive_ends rfl hready (dirChanSet_range hlen hfs h)
  · refine directive_ends rfl hready ((dirChanSet_chan hlen hfs hc).trans ((if_neg ?_).trans (if_pos h)))
    rw [h3, h5]
    decide
  · refine ⟨_, configured (configWith fs (s.chan c).config) (s.chan c), configWith_window .., configWith_softLimit .., configWith_auto .., configWith_grace ..,
      configWith_returnCheck .., ?_, configured_frame .., configured_slot _ _⟩
    have hset : (taken s).updChan c (fun _ => configured (configWith fs (s.chan c).config) (s.chan c)) =
        (taken s).updChan c (configured (configWith fs (s.chan c).config)) := State.updChan_congr _ rfl
    rw [hset]
    refine directive_ends rfl hready ((dirChanSet_chan hlen hfs hc).trans ((if_neg ?_).trans (if_neg ?_)))
    · rw [h3, h5]
      decide
    · rw [taken_chan, h]
      decide
  · exact directive_ends rfl hready (dirChanClose_format h)
  · exact directive_ends rfl hready (dirChanClose_range hlen h)
  · refine directive_ends rfl hready ((dirChanClose_chan hlen hc).trans ((if_neg (by omega)).trans (if_neg ?_)))
    rw [taken_chan, h]
    decide
  · refine ⟨closed (s.chan c), ?_, rfl, rfl, rfl, rfl, closed_slots _⟩
    have hset : (taken s).updChan c (fun _ => closed (s.chan c)) = (taken s).updChan c closed := State.updChan_congr _ rfl
    rw [hset]
    exact directive_ends rfl hready ((dirChanClose_chan hlen hc).trans ((if_neg (by omega)).trans (if_pos h)))

end Sys2Proof.ChannelSettings
end

section
/-! The directives of keys (R25 to R29). -/

namespace Sys2Proof.Keys
open Sys2Proof.Machine Sys2Proof.Safety Sys2Proof.ChannelSettings

/-! ### KEY-STAGE (R25) -/

section stage
variable {ops : List Byte} {s : State}

theorem dirKeyStage_format (h : ops.length ≠ 37) : dirKeyStage ops s = dirRefused .format s := if_pos h

/-- The staging buffer that KEY-STAGE fills (R25). -/
def staged (ops : List Byte) : Staging :=
  { valid := true, key := BitVec.ofNat 256 (numAt ops 0 32), salt := BitVec.ofNat 32 (numAt ops 32 4), epoch := BitVec.ofNat 8 (numAt ops 36 1) }

theorem dirKeyStage_done (h : ops.length = 37) : dirKeyStage ops s = dirDone [] { s with staging := staged ops } := if_neg (not_not.2 h)

/-- A number read from bytes fits in their width. -/
theorem ofNat_numAt_toNat {w n : Nat} (ops : List Byte) (i : Nat) (h : 256 ^ n = 2 ^ w) : (BitVec.ofNat w (numAt ops i n)).toNat = numAt ops i n := by
  rw [BitVec.toNat_ofNat, ← h, Nat.mod_eq_of_lt (numAt_lt ops i n)]

theorem staged_fields (ops : List Byte) : (staged ops).key.toNat = numAt ops 0 32 ∧ (staged ops).salt.toNat = numAt ops 32 4 ∧
    (staged ops).epoch.toNat = numAt ops 36 1 :=
  ⟨ofNat_numAt_toNat ops 0 (by norm_num), ofNat_numAt_toNat ops 32 (by norm_num), ofNat_numAt_toNat ops 36 (by norm_num)⟩

end stage

/-! ### KEY-COMMIT (R26 to R28) -/

section commit
variable {ops : List Byte} {s : State} {c : Chan} {out inb : Bool} {x : Letter}

theorem letterOf_gt {n : Nat} (h : 1 < n) : letterOf n = none := by
  unfold letterOf
  split
  · omega
  · omega
  · rfl

theorem targetOf_gt {n : Nat} (h : 2 < n) : targetOf n = none := by
  unfold targetOf
  split
  · omega
  · omega
  · omega
  · rfl

theorem dirKeyCommit_format (h : ops.length ≠ 4) : dirKeyCommit ops s = dirRefused .format s := if_pos h

theorem dirKeyCommit_range (hlen : ops.length = 4) (h : 1024 ≤ numAt ops 0 2 ∨ 2 < numAt ops 2 1 ∨ 1 < numAt ops 3 1) :
    dirKeyCommit ops s = dirRefused .range s := by
  unfold dirKeyCommit
  rw [if_neg (not_not.2 hlen)]
  rcases h with h | h | h
  · rw [chanOf_ge h]
  · rw [targetOf_gt h]
    split
    · next hno _ => cases hno
    · rfl
  · rw [letterOf_gt h]
    split
    · next hno => cases hno
    · rfl

theorem dirKeyCommit_named (hlen : ops.length = 4) (hc : c.val = numAt ops 0 2) (ht : targetOf (numAt ops 2 1) = some (out, inb))
    (hx : letterOf (numAt ops 3 1) = some x) : dirKeyCommit ops s = if commitStateRefused s c out inb x then dirRefused .state s
      else if out && ((s.chan c).outSlot x).state == .draining then dirRefused .busy s
      else dirDone (beBytes 3 (kcvOf s.staging.key).toNat) (commitKey c out inb x s) := by
  unfold dirKeyCommit
  rw [if_neg (not_not.2 hlen), chanOf_val hc, ht, hx]

/-- The seven STATE checks (R26). -/
theorem commitStateRefused_iff (s : State) (c : Chan) (out inb : Bool) (x : Letter) : commitStateRefused s c out inb x = true ↔
    s.pins.zeroizeHigh = false ∨ s.staging.valid = false ∨ (s.chan c).isOpen = false ∨
      out = true ∧ inService ((s.chan c).outSlot x) ∨
      out = true ∧ inService ((s.chan c).outSlot x.other) ∧ ((s.chan c).outSlot x.other).epoch = some s.staging.epoch ∨
      inb = true ∧ ((s.chan c).inSlot x).state = .current ∨
      inb = true ∧ ((s.chan c).inSlot x.other).state ≠ .empty ∧ ((s.chan c).inSlot x.other).epoch = some s.staging.epoch := by
  unfold commitStateRefused inService
  simp only [Bool.or_eq_true, Bool.and_eq_true, Bool.not_eq_true', beq_iff_eq, bne_iff_ne, ne_eq, or_assoc, and_assoc]

/-- The record after the inbound side of a commit (R28). -/
def inSideDone (s : State) (c : Chan) (inb : Bool) (x : Letter) : Channel :=
  if inb then commitInSide s.staging (kcvOf s.staging.key) x (s.chan c) else s.chan c

/-- The record after both sides of a commit, and the kinds it reports (R27, R28). -/
def sidesDone (s : State) (c : Chan) (out inb : Bool) (x : Letter) : Channel × KindSet :=
  if out then commitOutSide s.time s.staging (kcvOf s.staging.key) x (inSideDone s c inb x) else (inSideDone s c inb x, 0)

theorem commitKey_eq (c : Chan) (out inb : Bool) (x : Letter) (s : State) : commitKey c out inb x s =
    ({ s.updChan c (fun _ => (sidesDone s c out inb x).1) with staging := Staging.cold }).updAgent fun a =>
      { a with fifo := if (sidesDone s c out inb x).2 = 0 then a.fifo else addKinds c (sidesDone s c out inb x).2 a.fifo } := by
  rw [← reportChan_eq]
  rfl

theorem commitKey_chan (c d : Chan) (out inb : Bool) (x : Letter) (s : State) :
    (commitKey c out inb x s).chan d = if d = c then (sidesDone s c out inb x).1 else s.chan d := by
  rw [commitKey_eq]
  exact State.updChan_chan (s := s) c d fun _ => (sidesDone s c out inb x).1

/-- Two records agree in all but their slots. -/
def SameButSlots (ch d : Channel) : Prop := d.isOpen = ch.isOpen ∧ d.config = ch.config ∧ d.schedule = ch.schedule ∧ d.counters = ch.counters

theorem SameButSlots.eq {ch d : Channel} (h : SameButSlots ch d) : d = { ch with outA := d.outA, outB := d.outB, inA := d.inA, inB := d.inB } := by
  obtain ⟨h1, h2, h3, h4⟩ := h
  rw [← h1, ← h2, ← h3, ← h4]

theorem SameButSlots.trans {ch d e : Channel} (h1 : SameButSlots ch d) (h2 : SameButSlots d e) : SameButSlots ch e := by
  obtain ⟨a1, b1, c1, d1⟩ := h1
  obtain ⟨a2, b2, c2, d2⟩ := h2
  exact ⟨a2.trans a1, b2.trans b1, c2.trans c1, d2.trans d1⟩

theorem sameButSlots_setOut (ch : Channel) (x : Letter) (o : OutSlot) : SameButSlots ch (ch.setOut x o) := by cases x <;> exact ⟨rfl, rfl, rfl, rfl⟩

theorem inSideDone_frame (s : State) (c : Chan) (inb : Bool) (x : Letter) : SameButSlots (s.chan c) (inSideDone s c inb x) := by
  unfold inSideDone commitInSide Channel.setIn
  cases inb <;> cases x <;> exact ⟨rfl, rfl, rfl, rfl⟩

theorem inSideDone_outSlot (s : State) (c : Chan) (inb : Bool) (x y : Letter) : (inSideDone s c inb x).outSlot y = (s.chan c).outSlot y := by
  unfold inSideDone commitInSide
  cases inb <;> simp

theorem inSideDone_auto (s : State) (c : Chan) (inb : Bool) (x : Letter) : (inSideDone s c inb x).config = (s.chan c).config := by
  obtain ⟨-, h, -⟩ := inSideDone_frame s c inb x
  exact h

theorem inSideDone_inSlot (s : State) (c : Chan) (inb : Bool) (x : Letter) :
    (inSideDone s c inb x).inSlot x.other = (s.chan c).inSlot x.other ∧ (inb = false → (inSideDone s c inb x).inSlot x = (s.chan c).inSlot x) ∧
    (inb = true → (inSideDone s c inb x).inSlot x = commitIn s.staging (kcvOf s.staging.key) ((s.chan c).inSlot x)) := by
  unfold inSideDone commitInSide Channel.setIn
  cases inb <;> cases x <;> simp [Channel.inSlot, Letter.other]

/-! #### The outbound side (R27) -/

variable {ch : Channel} {now : Time} {st : Staging} {kcv : Kcv}

/-- A commit beside an EXHAUSTED slot of another epoch, with AUTO on, switches (R27, R93, R94). -/
theorem commitOutSide_switched (hauto : ch.config.auto = true) (hex : (ch.outSlot x.other).state = .exhausted)
    (hepoch : (ch.outSlot x.other).epoch ≠ some st.epoch) : commitOutSide now st kcv x ch =
      ((ch.setOut x.other (retire (ch.outSlot x.other))).setOut x { commitOut st kcv (ch.outSlot x) with state := .live, switchTime := some now },
        kindBit .switched) := by
  have hnew : (ch.setOut x (commitOut st kcv (ch.outSlot x))).outSlot x = commitOut st kcv (ch.outSlot x) := by simp
  have hold' : (ch.setOut x (commitOut st kcv (ch.outSlot x))).outSlot x.other = ch.outSlot x.other := by simp
  have hboth : ¬ (inService (ch.setOut x (commitOut st kcv (ch.outSlot x))).outA ∧ inService (ch.setOut x (commitOut st kcv (ch.outSlot x))).outB) := by
    rintro ⟨ha, hb⟩
    have hin : inService ((ch.setOut x (commitOut st kcv (ch.outSlot x))).outSlot x) := by
      cases x with
      | a => exact ha
      | b => exact hb
    rw [hnew] at hin
    rcases hin with h | h <;> cases h
  have hold : oldSlot (ch.setOut x (commitOut st kcv (ch.outSlot x))) = some x.other :=
    oldSlot_of_inService hboth (by rw [hold']; exact .inr hex)
  have hmade : switchMade (ch.setOut x (commitOut st kcv (ch.outSlot x))) = true := by
    rw [Slots.switchMade_of_old hold, Letter.other_other, hnew, hold']
    exact ⟨rfl, fun h => hepoch h.symm⟩
  have hset : ∀ o p q, ((ch.setOut x o).setOut x.other p).setOut x q = (ch.setOut x.other p).setOut x q := fun o p q => by cases x <;> rfl
  unfold commitOutSide
  rw [if_pos ⟨hauto, hex⟩, requestSwitch, if_pos hmade, (Slots.makeSwitch_of_old hold now).2, Letter.other_other, hold', hnew, hset]

theorem commitOutSide_plain (h : ¬ (ch.config.auto = true ∧ (ch.outSlot x.other).state = .exhausted)) :
    commitOutSide now st kcv x ch = (ch.setOut x (commitOut st kcv (ch.outSlot x)), 0) := if_neg h

/-- The two outbound slots and the kinds reported by a commit of the outbound side (R27). -/
theorem commitOutSide_result (hepoch : inService (ch.outSlot x.other) → (ch.outSlot x.other).epoch ≠ some st.epoch) :
    ∃ switched : Bool, switched = decide (ch.config.auto = true ∧ (ch.outSlot x.other).state = .exhausted) ∧
    SameButSlots ch (commitOutSide now st kcv x ch).1 ∧ (∀ y, (commitOutSide now st kcv x ch).1.inSlot y = ch.inSlot y) ∧
    (commitOutSide now st kcv x ch).1.outSlot x = { ch.outSlot x with
      state := if switched then .live else .loaded, key := st.key, salt := st.salt, epoch := some st.epoch,
      next := .seq 1, load := (ch.outSlot x).load + 1, kcv := some kcv, switchTime := if switched then some now else none, softHit := false } ∧
    (commitOutSide now st kcv x ch).1.outSlot x.other = (if switched then retire (ch.outSlot x.other) else ch.outSlot x.other) ∧
    (commitOutSide now st kcv x ch).2 = if switched then kindBit .switched else 0 := by
  by_cases h : ch.config.auto = true ∧ (ch.outSlot x.other).state = .exhausted
  · obtain ⟨hauto, hex⟩ := h
    refine ⟨true, (decide_eq_true ⟨hauto, hex⟩).symm, ?_⟩
    rw [commitOutSide_switched hauto hex (hepoch (.inr hex))]
    refine ⟨(sameButSlots_setOut ..).trans (sameButSlots_setOut ..), fun y => by simp, ?_, ?_, rfl⟩
    · simp [commitOut]
    · simp
  · refine ⟨false, (decide_eq_false h).symm, ?_⟩
    rw [commitOutSide_plain h]
    refine ⟨sameButSlots_setOut .., fun y => by simp, ?_, ?_, rfl⟩
    · simp [commitOut]
    · simp

/-- What both sides of a commit leave of the record of its channel (R27, R28). -/
theorem sidesDone_frame (hepoch : inService ((s.chan c).outSlot x.other) → out = true → ((s.chan c).outSlot x.other).epoch ≠ some s.staging.epoch) :
    SameButSlots (s.chan c) (sidesDone s c out inb x).1 ∧
    ∀ y, (sidesDone s c out inb x).1.inSlot y = (inSideDone s c inb x).inSlot y := by
  cases out with
  | false => exact ⟨inSideDone_frame s c inb x, fun y => rfl⟩
  | true =>
    have hep : inService ((inSideDone s c inb x).outSlot x.other) → ((inSideDone s c inb x).outSlot x.other).epoch ≠ some s.staging.epoch := by
      rw [inSideDone_outSlot]
      exact fun h => hepoch h rfl
    obtain ⟨-, -, hframe, hin, -⟩ := commitOutSide_result (now := s.time) (kcv := kcvOf s.staging.key) hep
    exact ⟨(inSideDone_frame s c inb x).trans hframe, hin⟩

theorem sidesDone_out (hepoch : inService ((s.chan c).outSlot x.other) → ((s.chan c).outSlot x.other).epoch ≠ some s.staging.epoch) :
    ∃ switched : Bool, switched = decide ((s.chan c).config.auto = true ∧ ((s.chan c).outSlot x.other).state = .exhausted) ∧
    (sidesDone s c true inb x).1.outSlot x = { (s.chan c).outSlot x with
      state := if switched then .live else .loaded, key := s.staging.key, salt := s.staging.salt, epoch := some s.staging.epoch,
      next := .seq 1, load := ((s.chan c).outSlot x).load + 1, kcv := some (kcvOf s.staging.key),
      switchTime := if switched then some s.time else none, softHit := false } ∧
    (sidesDone s c true inb x).1.outSlot x.other = (if switched then retire ((s.chan c).outSlot x.other) else (s.chan c).outSlot x.other) ∧
    (sidesDone s c true inb x).2 = if switched then kindBit .switched else 0 := by
  have hep : inService ((inSideDone s c inb x).outSlot x.other) → ((inSideDone s c inb x).outSlot x.other).epoch ≠ some s.staging.epoch := by
    rw [inSideDone_outSlot]
    exact hepoch
  obtain ⟨switched, hs, -, -, hx, hother, hkinds⟩ := commitOutSide_result (now := s.time) (kcv := kcvOf s.staging.key) hep
  rw [inSideDone_outSlot] at hs hx hother
  rw [inSideDone_auto] at hs
  exact ⟨switched, hs, hx, hother, hkinds⟩

end commit

/-! ### KEY-ERASE (R29) -/

section erase
variable {ops : List Byte} {s : State} {c : Chan} {x : Letter}

theorem flagOf_gt {n : Nat} (h : 1 < n) : flagOf n = none := by
  unfold flagOf
  split
  · omega
  · omega
  · rfl

theorem dirKeyErase_format (h : ops.length ≠ 4) : dirKeyErase ops s = dirRefused .format s := if_pos h

theorem dirKeyErase_range (hlen : ops.length = 4) (h : 1024 ≤ numAt ops 0 2 ∨ 1 < numAt ops 2 1 ∨ 1 < numAt ops 3 1) :
    dirKeyErase ops s = dirRefused .range s := by
  unfold dirKeyErase
  rw [if_neg (not_not.2 hlen)]
  rcases h with h | h | h
  · rw [chanOf_ge h]
  · rw [flagOf_gt h]
    split
    · next hno _ => cases hno
    · rfl
  · rw [letterOf_gt h]
    split
    · next hno => cases hno
    · rfl

theorem dirKeyErase_out (hlen : ops.length = 4) (hc : c.val = numAt ops 0 2) (hx : letterOf (numAt ops 3 1) = some x) (h : numAt ops 2 1 = 0) :
    dirKeyErase ops s = eraseOut c x s := by
  unfold dirKeyErase
  rw [if_neg (not_not.2 hlen), chanOf_val hc, hx, h]
  rfl

theorem dirKeyErase_in (hlen : ops.length = 4) (hc : c.val = numAt ops 0 2) (hx : letterOf (numAt ops 3 1) = some x) (h : numAt ops 2 1 = 1) :
    dirKeyErase ops s = eraseIn c x s := by
  unfold dirKeyErase
  rw [if_neg (not_not.2 hlen), chanOf_val hc, hx, h]
  rfl

theorem eraseOut_empty (h : ((s.chan c).outSlot x).state = .empty) : eraseOut c x s = dirDone [] s := by
  unfold eraseOut
  rw [h]

theorem eraseOut_loaded (h : ((s.chan c).outSlot x).state = .loaded) :
    eraseOut c x s = dirDone [] (s.updChan c fun ch => ch.setOut x (emptyOut ((s.chan c).outSlot x))) := by
  unfold eraseOut
  rw [h]
  exact congrArg (dirDone []) (State.updChan_congr _ rfl)

theorem eraseOut_inService (h : inService ((s.chan c).outSlot x)) : eraseOut c x s = dirRefused .state s := by
  unfold eraseOut
  rcases h with h | h <;> rw [h]

theorem eraseOut_draining (h : ((s.chan c).outSlot x).state = .draining) : eraseOut c x s = dirRefused .busy s := by
  unfold eraseOut
  rw [h]

theorem eraseIn_empty (h : ((s.chan c).inSlot x).state = .empty) : eraseIn c x s = dirDone [] s := by
  unfold eraseIn
  dsimp only
  rw [h]

theorem eraseIn_refused (h : ((s.chan c).inSlot x).state = .current) (hfading : ((s.chan c).inSlot x.other).state = .fading) :
    eraseIn c x s = dirRefused .state s := by
  unfold eraseIn
  dsimp only
  rw [h]
  exact if_pos hfading

theorem eraseIn_done (h : ((s.chan c).inSlot x).state ≠ .empty)
    (hno : ((s.chan c).inSlot x).state ≠ .current ∨ ((s.chan c).inSlot x.other).state ≠ .fading) :
    eraseIn c x s = dirDone [] (s.updChan c fun ch => ch.setIn x (emptyIn ((s.chan c).inSlot x))) := by
  have hcongr : s.updChan c (fun ch => ch.setIn x (emptyIn (ch.inSlot x))) = s.updChan c fun ch => ch.setIn x (emptyIn ((s.chan c).inSlot x)) :=
    State.updChan_congr _ rfl
  unfold eraseIn
  dsimp only
  rw [hcongr]
  cases hs : ((s.chan c).inSlot x).state with
  | empty => exact absurd hs h
  | pending => rfl
  | fading => rfl
  | current => exact if_neg (hno.resolve_left (not_not.2 hs))

end erase

/-- Settles O37: each directive by its refusals and its effect. -/
theorem keyDirectives : Obligations.KeyDirectives := by
  refine ⟨fun ops s hready => ⟨fun h => ?_, fun hlen => ?_⟩,
    fun ops s hready => ⟨fun h => ?_, fun hlen h => ?_, fun c out inb x hlen hc ht hx => ?_⟩,
    fun ops s hready => ⟨fun h => ?_, fun hlen h => ?_, fun c x hlen hc hx => ⟨fun hside => ⟨fun h => ?_, fun h => ?_, fun h => ?_, fun h => ?_⟩,
      fun hside => ⟨fun h => ?_, fun h hfading => ?_, fun h hno => ?_⟩⟩⟩⟩
  · exact directive_ends rfl hready (dirKeyStage_format h)
  · obtain ⟨hkey, hsalt, hepoch⟩ := staged_fields ops
    exact ⟨staged ops, rfl, hkey, hsalt, hepoch, directive_ends rfl hready (dirKeyStage_done hlen)⟩
  · exact directive_ends rfl hready (dirKeyCommit_format h)
  · exact directive_ends rfl hready (dirKeyCommit_range hlen h)
  · have hnamed := dirKeyCommit_named (s := taken s) hlen hc ht hx
    refine ⟨_, rfl, fun href => ?_, fun hok hout hdraining => ?_, fun hok hno => ?_⟩
    · exact directive_ends rfl hready (hnamed.trans (if_pos ((commitStateRefused_iff (taken s) c out inb x).2 href)))
    · refine directive_ends rfl hready (hnamed.trans ((if_neg fun hr => hok ((commitStateRefused_iff (taken s) c out inb x).1 hr)).trans (if_pos ?_)))
      rw [taken_chan, hout, hdraining]
      rfl
    · have hbusy : ¬ (out && (((taken s).chan c).outSlot x).state == .draining) = true := by
        rw [taken_chan, Bool.and_eq_true, beq_iff_eq]
        exact fun h => hno.elim (fun ho => by rw [h.1] at ho; cases ho) fun hs => hs h.2
      have hepoch : out = true → inService ((s.chan c).outSlot x.other) → ((s.chan c).outSlot x.other).epoch ≠ some s.staging.epoch := fun ho hin he =>
        hok (.inr (.inr (.inr (.inr (.inl ⟨ho, hin, he⟩)))))
      obtain ⟨hframe, hin⟩ := sidesDone_frame (s := taken s) (c := c) (out := out) (inb := inb) (x := x) fun h ho => hepoch ho h
      obtain ⟨hother, hkept, hwritten⟩ := inSideDone_inSlot (taken s) c inb x
      have hchan : (commitKey c out inb x (taken s)).chan c = (sidesDone (taken s) c out inb x).1 := by
        rw [commitKey_chan, if_pos rfl]
      have hfifo : (commitKey c out inb x (taken s)).agent.fifo = if (sidesDone (taken s) c out inb x).2 = 0 then s.agent.fifo
          else addKinds c (sidesDone (taken s) c out inb x).2 s.agent.fifo := by
        rw [commitKey_eq]
        rfl
      refine ⟨commitKey c out inb x (taken s), _, rfl,
        directive_ends rfl hready (hnamed.trans ((if_neg fun hr => hok ((commitStateRefused_iff (taken s) c out inb x).1 hr)).trans (if_neg hbusy))),
        ?_, fun d hd => ?_, ?_, ?_, fun hi => ?_, fun hi => ?_, fun ho => ⟨fun y => ?_, ?_⟩, fun ho => ?_, ?_⟩
      · rw [commitKey_eq]
        rfl
      · rw [commitKey_chan, if_neg hd]
        rfl
      · rw [hchan]
        exact hframe.eq
      · rw [hchan, hin, hother]
        rfl
      · rw [hchan, hin, hkept hi]
        rfl
      · rw [hchan, hin, hwritten hi]
        rfl
      · subst ho
        rw [hchan]
        exact inSideDone_outSlot (taken s) c inb x y
      · subst ho
        rw [hfifo]
        rfl
      · subst ho
        obtain ⟨switched, hs, hslot, hold, hkinds⟩ := sidesDone_out (s := taken s) (c := c) (inb := inb) (x := x) (hepoch rfl)
        rw [hchan, hslot, hold, hfifo, hkinds]
        refine ⟨switched, hs, rfl, fun h => ?_, fun h hf => ?_, fun h hf => ?_, ?_⟩
        · rw [h]; rfl
        · rw [h]
          exact Slots.retire_inFlight hf
        · rw [h, if_pos rfl, Slots.retire_idle (by exact hf)]
          exact ⟨outCleared_emptyOut _, rfl, hf⟩
        · cases switched <;> rfl
      · rw [commitKey_eq]
        rfl
  · exact directive_ends rfl hready (dirKeyErase_format h)
  · exact directive_ends rfl hready (dirKeyErase_range hlen h)
  · exact directive_ends rfl hready ((dirKeyErase_out hlen hc hx hside).trans (eraseOut_empty h))
  · exact ⟨_, outCleared_emptyOut _, rfl, rfl, directive_ends rfl hready ((dirKeyErase_out hlen hc hx hside).trans (eraseOut_loaded h))⟩
  · exact directive_ends rfl hready ((dirKeyErase_out hlen hc hx hside).trans (eraseOut_inService h))
  · exact directive_ends rfl hready ((dirKeyErase_out hlen hc hx hside).trans (eraseOut_draining h))
  · exact directive_ends rfl hready ((dirKeyErase_in hlen hc hx hside).trans (eraseIn_empty h))
  · exact directive_ends rfl hready ((dirKeyErase_in hlen hc hx hside).trans (eraseIn_refused h hfading))
  · exact ⟨_, inCleared_emptyIn _, rfl, rfl, directive_ends rfl hready ((dirKeyErase_in hlen hc hx hside).trans (eraseIn_done h hno))⟩

end Sys2Proof.Keys
end

section
/-! The directives that edit the rule banks (R39, R44, R50, R51, R54, R55). -/

namespace Sys2Proof.RuleDirections
open Sys2Proof.Machine Sys2Proof.Safety Sys2Proof.ChannelSettings

/-! ### TABLE-COMMIT (R55) -/

section tableCommit
variable {s : State} {ops : List Byte}

theorem dirTableCommit_format (h : ops ≠ []) : dirTableCommit ops s = dirRefused .format s :=
  if_pos fun hlen => h (List.eq_nil_of_length_eq_zero hlen)

theorem dirTableCommit_done : dirTableCommit [] s = dirDone (beBytes 2 (s.shadow.toList.countP (·.valid))) (commitTable s) := by
  rw [List.countP_eq_length_filter]
  exact if_neg (not_not.2 rfl)

theorem beginLookup_gen (s : State) (u : Use) (pos : PortId) (inner : List Byte) : (beginLookup s u pos inner).gen = s.bankGen := by
  unfold beginLookup
  split <;> rfl

/-- A lookup of another bank counts no hit (R44). -/
theorem countHit_of_gen_ne {r : Lookup} (h : r.gen ≠ s.bankGen) : countHit r s = s := by
  unfold countHit
  split
  · rfl
  · rw [if_neg h]

end tableCommit

/-- Settles O42. -/
theorem tableCommit : Obligations.TableCommit := by
  refine fun ops s hready => ⟨fun h => ?_, fun h => ?_⟩
  · exact directive_ends rfl hready (dirTableCommit_format h)
  · subst h
    refine ⟨commitTable (taken s), directive_ends rfl hready dirTableCommit_done, rfl, rfl, fun i => ?_, fun u pos inner => countHit_of_gen_ne ?_, rfl⟩
    · simp [commitTable]
    · rw [beginLookup_gen]
      exact fun h => absurd h (by simp [commitTable])

/-! ### RULE-MOVE (R54) -/

section copies
variable {b : Bank} {src dst n i j : Nat}

/-- The entry of a bank at a number. -/
def entryAt (b : Bank) (i : Nat) : Entry := b.getD i Entry.cleared

theorem entryAt_val (b : Bank) (i : Fin 256) : entryAt b i.val = b[i] := by simp [entryAt, Vector.getD]

theorem entryAt_copyEntry (h : dst < 256) : entryAt (copyEntry b src dst) i = if i = dst then entryAt b src else entryAt b i := by
  unfold entryAt copyEntry Vector.getD
  by_cases hi : i = dst
  · subst hi
    simp [h]
  · simp [hi, Ne.symm hi]

/-- UP toward entries already read leaves the range as it stood. -/
theorem moveUp_downward (n : Nat) : ∀ (src dst : Nat) (b : Bank), dst ≤ src → dst + n ≤ 256 → ∀ j,
    entryAt (moveUp n src dst b) j = if dst ≤ j ∧ j < dst + n then entryAt b (src + (j - dst)) else entryAt b j := by
  induction n with
  | zero => exact fun src dst b _ _ j => (if_neg (by omega)).symm
  | succ n ih =>
    intro src dst b hle hbound j
    rw [moveUp, ih (src + 1) (dst + 1) _ (by omega) (by omega), entryAt_copyEntry (by omega), entryAt_copyEntry (by omega)]
    by_cases hj : dst + 1 ≤ j ∧ j < dst + 1 + n
    · rw [if_pos hj, if_neg (by omega), if_pos (by omega)]
      congr 1
      omega
    · rw [if_neg hj]
      by_cases hjd : j = dst
      · subst hjd
        rw [if_pos rfl, if_pos (by omega), Nat.sub_self, Nat.add_zero]
      · rw [if_neg hjd, if_neg (by omega)]

/-- The remainder of the next number. -/
theorem succ_mod {p : Nat} (hp : 0 < p) (a : Nat) : a % p + 1 = p ∧ (a + 1) % p = 0 ∨ a % p + 1 < p ∧ (a + 1) % p = a % p + 1 := by
  rw [← Nat.mod_add_mod]
  rcases Nat.lt_or_ge (a % p + 1) p with h | h
  · exact .inr ⟨h, Nat.mod_eq_of_lt h⟩
  · have heq : a % p + 1 = p := le_antisymm (Nat.mod_lt a hp) h
    exact .inl ⟨heq, by rw [heq, Nat.mod_self]⟩

/-- UP toward entries not yet read repeats the first entries of the source. -/
theorem moveUp_upward {p : Nat} (hp : 0 < p) (n : Nat) : ∀ (src : Nat) (b : Bank), src + p + n ≤ 256 → ∀ j,
    entryAt (moveUp n src (src + p) b) j = if src + p ≤ j ∧ j < src + p + n then entryAt b (src + (j - (src + p)) % p) else entryAt b j := by
  induction n with
  | zero => exact fun src b _ j => (if_neg (by omega)).symm
  | succ n ih =>
    intro src b hbound j
    have hstep := ih (src + 1) (copyEntry b src (src + p)) (by omega) j
    rw [Nat.add_right_comm src 1 p] at hstep
    rw [moveUp, hstep, entryAt_copyEntry (by omega), entryAt_copyEntry (by omega)]
    by_cases hj : src + p + 1 ≤ j ∧ j < src + p + 1 + n
    · have hsub : j - (src + p) = j - (src + p + 1) + 1 := by omega
      have hin : src + p ≤ j ∧ j < src + p + (n + 1) := by omega
      rw [if_pos hj, if_pos hin, hsub]
      rcases succ_mod hp (j - (src + p + 1)) with ⟨hlast, hnext⟩ | ⟨hlast, hnext⟩
      · rw [hnext]
        generalize (j - (src + p + 1)) % p = r at hlast ⊢
        rw [if_pos (by omega), Nat.add_zero]
      · rw [hnext]
        generalize (j - (src + p + 1)) % p = r at hlast ⊢
        rw [if_neg (by omega)]
        congr 1
        omega
    · rw [if_neg hj]
      by_cases hjd : j = src + p
      · rw [if_pos hjd, if_pos (by omega), hjd, Nat.sub_self, Nat.zero_mod, Nat.add_zero]
      · rw [if_neg hjd, if_neg (by omega)]

/-- DOWN toward entries already read leaves the range as it stood. -/
theorem moveDown_upward (n : Nat) : ∀ (src dst : Nat) (b : Bank), src ≤ dst → dst + n ≤ 256 → ∀ j,
    entryAt (moveDown n src dst b) j = if dst ≤ j ∧ j < dst + n then entryAt b (src + (j - dst)) else entryAt b j := by
  induction n with
  | zero => exact fun src dst b _ _ j => (if_neg (by omega)).symm
  | succ n ih =>
    intro src dst b hle hbound j
    rw [moveDown, ih src dst _ hle (by omega), entryAt_copyEntry (by omega), entryAt_copyEntry (by omega)]
    by_cases hj : dst ≤ j ∧ j < dst + n
    · rw [if_pos hj, if_neg (by omega), if_pos (by omega)]
    · rw [if_neg hj]
      by_cases hjd : j = dst + n
      · rw [if_pos hjd, if_pos (by omega), hjd, Nat.add_sub_cancel_left]
      · rw [if_neg hjd, if_neg (by omega)]

/-- DOWN toward entries not yet read repeats the last entries of the source, from the top downward. -/
theorem moveDown_downward {p : Nat} (hp : 0 < p) (n : Nat) : ∀ (dst : Nat) (b : Bank), dst + n ≤ 256 → ∀ j,
    entryAt (moveDown n (dst + p) dst b) j =
      if dst ≤ j ∧ j < dst + n then entryAt b (dst + p + n - 1 - (dst + n - 1 - j) % p) else entryAt b j := by
  induction n with
  | zero => exact fun dst b _ j => (if_neg (by omega)).symm
  | succ n ih =>
    intro dst b hbound j
    rw [moveDown, ih dst _ (by omega), entryAt_copyEntry (by omega), entryAt_copyEntry (by omega)]
    by_cases hj : dst ≤ j ∧ j < dst + n
    · have hsub : dst + (n + 1) - 1 - j = dst + n - 1 - j + 1 := by omega
      have hin : dst ≤ j ∧ j < dst + (n + 1) := by omega
      rw [if_pos hj, if_pos hin, hsub]
      rcases succ_mod hp (dst + n - 1 - j) with ⟨hlast, hnext⟩ | ⟨hlast, hnext⟩
      · rw [hnext]
        generalize (dst + n - 1 - j) % p = r at hlast ⊢
        rw [if_pos (by omega)]
        congr 1
      · rw [hnext]
        generalize (dst + n - 1 - j) % p = r at hlast ⊢
        rw [if_neg (by omega)]
        congr 1
        omega
    · rw [if_neg hj]
      by_cases hjd : j = dst + n
      · have hzero : dst + (n + 1) - 1 - j = 0 := by omega
        rw [if_pos hjd, if_pos (by omega), hzero, Nat.zero_mod]
        congr 1
      · rw [if_neg hjd, if_neg (by omega)]

end copies

section move
variable {m : Move} {b : Bank} {ops : List Byte} {s : State}

theorem moveEntries_outside (hdst : m.dst + m.count ≤ 256) {j : Nat} (h : j < m.dst ∨ m.dst + m.count ≤ j) :
    entryAt (moveEntries m b) j = entryAt b j := by
  have hno : ¬ (m.dst ≤ j ∧ j < m.dst + m.count) := by omega
  unfold moveEntries
  rcases Nat.lt_trichotomy m.src m.dst with hlt | heq | hlt
  · obtain ⟨p, hp⟩ := Nat.exists_eq_add_of_lt hlt
    rw [Nat.add_assoc] at hp
    split
    · rw [hp] at hdst hno ⊢
      rw [moveUp_upward (by omega) _ _ _ hdst, if_neg hno]
    · rw [moveDown_upward _ _ _ _ (by omega) hdst, if_neg hno]
  · split
    · rw [moveUp_downward _ _ _ _ (by omega) hdst, if_neg hno]
    · rw [moveDown_upward _ _ _ _ (by omega) hdst, if_neg hno]
  · obtain ⟨p, hp⟩ := Nat.exists_eq_add_of_lt hlt
    rw [Nat.add_assoc] at hp
    split
    · rw [moveUp_downward _ _ _ _ (by omega) hdst, if_neg hno]
    · rw [hp, moveDown_downward (by omega) _ _ _ hdst, if_neg hno]

/-- UP with the destination above the source (R54). -/
theorem moveEntries_up (hdst : m.dst + m.count ≤ 256) (hup : m.up = true) (hlt : m.src < m.dst) {j : Nat} (hlo : m.dst ≤ j) (hhi : j < m.dst + m.count) :
    entryAt (moveEntries m b) j = entryAt b (m.src + (j - m.dst) % (m.dst - m.src)) := by
  obtain ⟨p, hp⟩ := Nat.exists_eq_add_of_le (Nat.le_of_lt hlt)
  rw [moveEntries, if_pos hup]
  rw [hp] at hdst hlo hhi ⊢
  rw [moveUp_upward (by omega) _ _ _ hdst, if_pos ⟨hlo, hhi⟩, Nat.add_sub_cancel_left]

/-- DOWN with the destination below the source (R54). -/
theorem moveEntries_down (hdst : m.dst + m.count ≤ 256) (hup : m.up = false) (hlt : m.dst < m.src) {j : Nat} (hlo : m.dst ≤ j) (hhi : j < m.dst + m.count) :
    entryAt (moveEntries m b) j = entryAt b (m.src + m.count - 1 - (m.dst + m.count - 1 - j) % (m.src - m.dst)) := by
  obtain ⟨p, hp⟩ := Nat.exists_eq_add_of_le (Nat.le_of_lt hlt)
  rw [moveEntries, if_neg (by rw [hup]; decide), hp, moveDown_downward (by omega) _ _ _ hdst, if_pos ⟨hlo, hhi⟩, Nat.add_sub_cancel_left]

/-- A move away from unread entries leaves the source range as it stood (R54). -/
theorem moveEntries_intact (hdst : m.dst + m.count ≤ 256)
    (h : m.up = true ∧ m.dst ≤ m.src ∨ m.up = false ∧ m.src ≤ m.dst ∨ m.src + m.count ≤ m.dst ∨ m.dst + m.count ≤ m.src)
    {j : Nat} (hlo : m.dst ≤ j) (hhi : j < m.dst + m.count) : entryAt (moveEntries m b) j = entryAt b (m.src + (j - m.dst)) := by
  cases hup : m.up with
  | true =>
    by_cases hle : m.dst ≤ m.src
    · rw [moveEntries, if_pos hup, moveUp_downward _ _ _ _ hle hdst, if_pos ⟨hlo, hhi⟩]
    · have hsmall : j - m.dst < m.dst - m.src := by
        rcases h with h | h | h | h
        · exact absurd h.2 hle
        · rw [hup] at h
          cases h.1
        · omega
        · omega
      rw [moveEntries_up hdst hup (by omega) hlo hhi, Nat.mod_eq_of_lt hsmall]
  | false =>
    by_cases hle : m.src ≤ m.dst
    · rw [moveEntries, if_neg (by rw [hup]; decide), moveDown_upward _ _ _ _ hle hdst, if_pos ⟨hlo, hhi⟩]
    · have hsmall : m.dst + m.count - 1 - j < m.src - m.dst := by
        rcases h with h | h | h | h
        · rw [hup] at h
          cases h.1
        · exact absurd h.2 hle
        · omega
        · omega
      rw [moveEntries_down hdst hup (by omega) hlo hhi, Nat.mod_eq_of_lt hsmall]
      congr 1
      omega

theorem dirRuleMove_format (h : ops.length ≠ 7) : dirRuleMove ops s = dirRefused .format s := if_pos h

theorem dirRuleMove_range (hlen : ops.length = 7)
    (h : 1 < numAt ops 6 1 ∨ numAt ops 4 2 = 0 ∨ 256 < numAt ops 0 2 + numAt ops 4 2 ∨ 256 < numAt ops 2 2 + numAt ops 4 2) :
    dirRuleMove ops s = dirRefused .range s := (if_neg (not_not.2 hlen)).trans (if_pos h)

theorem dirRuleMove_begun (hlen : ops.length = 7)
    (h : ¬ (1 < numAt ops 6 1 ∨ numAt ops 4 2 = 0 ∨ 256 < numAt ops 0 2 + numAt ops 4 2 ∨ 256 < numAt ops 2 2 + numAt ops 4 2)) :
    dirRuleMove ops s = .begun { s with move := some { src := numAt ops 0 2, dst := numAt ops 2 2, count := numAt ops 4 2, up := numAt ops 6 1 == 0 } } :=
  (if_neg (not_not.2 hlen)).trans (if_neg h)

theorem exec_ruleMoveCompletion (h : s.move = some m) : exec .ruleMoveCompletion s =
    .next (ended codeRuleMove .done [] { s with move := none, shadow := moveEntries m s.shadow }) := by
  show execRuleMoveCompletion s = _
  unfold execRuleMoveCompletion
  rw [h]
  rfl

end move

/-- Settles O41: the refusals, then the copies of each direction as one equation per place. -/
theorem ruleMove : Obligations.RuleMove := by
  refine ⟨fun ops s hready => ⟨fun h => ?_, fun hlen h => ?_, fun m hlen hsrc hdst hcount hup hpos hs hd => ?_⟩, fun m s hm hs hd => ?_⟩
  · exact directive_ends rfl hready (dirRuleMove_format h)
  · exact directive_ends rfl hready (dirRuleMove_range hlen h)
  · have hmove : m = { src := numAt ops 0 2, dst := numAt ops 2 2, count := numAt ops 4 2, up := numAt ops 6 1 == 0 } := by
      rw [← hsrc, ← hdst, ← hcount]
      obtain ⟨h0, hu⟩ | ⟨h1, hu⟩ := hup
      · rw [h0]
        exact congrArg (fun u => { m with up := u }) hu
      · rw [h1]
        exact congrArg (fun u => { m with up := u }) hu
    rw [hsrc, hcount] at hs
    rw [hdst, hcount] at hd
    rw [hcount] at hpos
    have hdirection : numAt ops 6 1 ≤ 1 := by omega
    rw [hmove]
    have hno : ¬ (1 < numAt ops 6 1 ∨ numAt ops 4 2 = 0 ∨ 256 < numAt ops 0 2 + numAt ops 4 2 ∨ 256 < numAt ops 2 2 + numAt ops 4 2) := by omega
    exact directive_begins rfl hready (dirRuleMove_begun hlen hno)
  · refine ⟨_, exec_ruleMoveCompletion hm, fun j h => ?_, fun h i j hlo hhi hi => ?_, fun hup hlt i j hlo hhi hi => ?_, fun hup hlt i j hlo hhi hi => ?_⟩
    · rw [← entryAt_val, moveEntries_outside hd h, entryAt_val]
    · rw [← entryAt_val, moveEntries_intact hd h hlo hhi, ← hi, entryAt_val]
    · rw [← entryAt_val, moveEntries_up hd hup hlt hlo hhi, ← hi, entryAt_val]
    · rw [← entryAt_val, moveEntries_down hd hup hlt hlo hhi, ← entryAt_val]
      congr 1
      omega

/-! ### RULE-WRITE and RULE-PATCH (R50, R51) -/

section edits
variable {ops : List Byte} {s : State} {fs : FieldList} {base : Entry → Entry}

theorem ruleEdit_format (h : ops.length < 2 ∨ fieldList entryFields (ops.drop 2) = none) : ruleEdit base ops s = dirRefused .format s := by
  unfold ruleEdit
  split
  · rfl
  · next hlen => rw [h.resolve_left hlen]

theorem ruleEdit_dependent (hlen : 2 ≤ ops.length) (hfs : fieldList entryFields (ops.drop 2) = some fs) (h : entryFormat fs = false) :
    ruleEdit base ops s = dirRefused .format s := by
  unfold ruleEdit
  rw [if_neg (by omega), hfs]
  exact if_pos h

theorem ruleEdit_index {j : Fin 256} (hlen : 2 ≤ ops.length) (hfs : fieldList entryFields (ops.drop 2) = some fs) (hf : entryFormat fs = true)
    (hj : j.val = numAt ops 0 2) : ruleEdit base ops s = if entryRange fs = false then dirRefused .range s
      else dirDone (beBytes 2 j.val ++ entryBytes (Config.absentType s.free) (entryWith fs (base s.shadow[j])))
        (nextFree { s with shadow := s.shadow.set j (entryWith fs (base s.shadow[j])) }) := by
  unfold ruleEdit
  rw [if_neg (by omega), hfs]
  dsimp only
  rw [if_neg (by rw [hf]; decide), indexOf_val hj]

theorem ruleEdit_range (hlen : 2 ≤ ops.length) (hfs : fieldList entryFields (ops.drop 2) = some fs) (hf : entryFormat fs = true)
    (h : 256 ≤ numAt ops 0 2 ∨ entryRange fs = false) : ruleEdit base ops s = dirRefused .range s := by
  by_cases hge : 256 ≤ numAt ops 0 2
  · unfold ruleEdit
    rw [if_neg (by omega), hfs]
    dsimp only
    rw [if_neg (by rw [hf]; decide), indexOf_ge hge]
  · rw [ruleEdit_index (j := ⟨numAt ops 0 2, by omega⟩) hlen hfs hf rfl, if_pos (h.resolve_left hge)]

/-- The ranges of R50 and R177. -/
theorem entryRange_iff (fs : FieldList) : entryRange fs = true ↔
    (∀ v, fieldNat fs 1 = some v → v ≤ 1) ∧ (∀ v, fieldNat fs 2 = some v → v ≤ 2) ∧ (∀ v, fieldNat fs 3 = some v → v ≤ 15) ∧
    (∀ v, fieldNat fs 4 = some v → v ≤ 2) ∧ (∀ b, fieldBytes fs 5 = some b → numAt b 0 2 ≤ numAt b 2 2 ∧ numAt b 2 2 ≤ 4095) ∧
    (∀ b, fieldBytes fs 6 = some b → numAt b 0 1 ≤ 1) ∧ (∀ v, fieldNat fs 7 = some v → v ≤ 2) ∧
    (∀ v, fieldNat fs 8 = some v → 2 ≤ v ∧ v ≤ 1023) := by
  simp only [← fieldAtMost_iff]
  unfold entryRange
  cases fieldBytes fs 5 <;> cases fieldBytes fs 6 <;> cases fieldNat fs 8 <;> simp <;> tauto

theorem vlanField_cases (fs : FieldList) (now : VlanMatch) : (fieldNat fs 4 = none → vlanField fs now = now) ∧
    (fieldNat fs 4 = some 0 → vlanField fs now = .untagged) ∧ (fieldNat fs 4 = some 1 → vlanField fs now = .any) ∧
    ∀ b, fieldNat fs 4 = some 2 → fieldBytes fs 5 = some b → vlanField fs now = .range (BitVec.ofNat 12 (numAt b 0 2)) (BitVec.ofNat 12 (numAt b 2 2)) := by
  unfold vlanField
  refine ⟨fun h => by simp only [h], fun h => by simp only [h], fun h => by simp only [h], fun b h hb => ?_⟩
  simp only [h, hb]

theorem typeField_eq (fs : FieldList) (now : Option (BitVec 16)) : typeField fs now =
    ((fieldBytes fs 6).map fun b => if numAt b 0 1 = 0 then none else some (BitVec.ofNat 16 (numAt b 1 2))).getD now := by
  unfold typeField
  cases fieldBytes fs 6 <;> rfl

theorem actionField_cases (fs : FieldList) (now : Action) : (fieldNat fs 7 = none → actionField fs now = now) ∧
    (fieldNat fs 7 = some 1 → actionField fs now = .bypass) ∧ (fieldNat fs 7 = some 2 → actionField fs now = .discard) ∧
    ∀ c : Chan, fieldNat fs 7 = some 0 → fieldNat fs 8 = some c.val → actionField fs now = .protect c := by
  unfold actionField
  refine ⟨fun h => by simp only [h], fun h => by simp only [h], fun h => by simp only [h], fun c h hc => ?_⟩
  simp only [h, hc, Option.getD_some, chanOf_val (rfl : c.val = c.val)]

theorem entryWith_fields (fs : FieldList) (e : Entry) : (entryWith fs e).valid = ((fieldNat fs 1).map (· != 0)).getD e.valid ∧
    (entryWith fs e).direction = ((fieldNat fs 2).map directionOf).getD e.direction ∧
    (entryWith fs e).ports = ((fieldNat fs 3).map (BitVec.ofNat 4)).getD e.ports := by
  refine ⟨flagField_eq fs 1 e.valid, ?_, ?_⟩
  · unfold entryWith
    cases fieldNat fs 2 <;> rfl
  · unfold entryWith
    cases fieldNat fs 3 <;> rfl

end edits

/-- What one edit directive does, for RULE-WRITE and RULE-PATCH alike. -/
theorem ruleEdit_settles {i : Instr} {code : Byte} {ops : List Byte} {s : State} {base : Entry → Entry} (hdir : directiveOf i = some (code, ops))
    (hperform : ∀ last t, perform last ⟨code, ops⟩ t = ruleEdit base ops t) (hready : Ready code ops s) :
    (ops.length < 2 ∨ fieldList entryFields (ops.drop 2) = none → exec i s = .next (ended code .format [] (taken s))) ∧
    ∀ fs, 2 ≤ ops.length → fieldList entryFields (ops.drop 2) = some fs →
      (entryFormat fs = false → exec i s = .next (ended code .format [] (taken s))) ∧
      (entryFormat fs = true → (256 ≤ numAt ops 0 2 ∨ entryRange fs = false → exec i s = .next (ended code .range [] (taken s))) ∧
        ∀ j : Fin 256, j.val = numAt ops 0 2 → entryRange fs = true →
          exec i s = .next (ended code .done (beBytes 2 j.val ++ entryBytes (Config.absentType s.free) (entryWith fs (base s.shadow[j])))
            { taken s with shadow := s.shadow.set j (entryWith fs (base s.shadow[j])), free := s.free + 1 })) := by
  refine ⟨fun h => ?_, fun fs hlen hfs => ⟨fun h => ?_, fun hf => ⟨fun h => ?_, fun j hj hr => ?_⟩⟩⟩
  · exact directive_ends hdir hready ((hperform _ _).trans (ruleEdit_format h))
  · exact directive_ends hdir hready ((hperform _ _).trans (ruleEdit_dependent hlen hfs h))
  · exact directive_ends hdir hready ((hperform _ _).trans (ruleEdit_range hlen hfs hf h))
  · exact directive_ends hdir hready ((hperform _ _).trans ((ruleEdit_index hlen hfs hf hj).trans (if_neg (by rw [hr]; decide))))

/-- Settles O39: both directives are one edit over their own base. -/
theorem ruleEdits : Obligations.RuleEdits := by
  intro i code base ops s hi hready
  obtain ⟨base', hbase, hdir, hperform⟩ : ∃ base' : Entry → Entry, (∀ t j, base t j = base' t.shadow[j]) ∧ directiveOf i = some (code, ops) ∧
      ∀ last t, perform last ⟨code, ops⟩ t = ruleEdit base' ops t := by
    rcases hi with ⟨rfl, rfl, hb⟩ | ⟨rfl, rfl, hb⟩
    · exact ⟨fun _ => Entry.writeDefault, hb, rfl, fun _ _ => rfl⟩
    · exact ⟨id, hb, rfl, fun _ _ => rfl⟩
  obtain ⟨hformat, hfields⟩ := ruleEdit_settles hdir hperform hready
  refine ⟨hformat, fun fs hlen hfs => ?_⟩
  obtain ⟨hdependent, hrange⟩ := hfields fs hlen hfs
  refine ⟨fun h => hdependent (Bool.eq_false_iff.2 fun hf => ?_), fun h5 h8 => ?_⟩
  · obtain ⟨h5, h8⟩ := (entryFormat_iff fs).1 hf
    exact h.elim (fun h => h h5) fun h => h h8
  · obtain ⟨hrefused, hdone⟩ := hrange ((entryFormat_iff fs).2 ⟨h5, h8⟩)
    refine ⟨entryRange_iff fs, hrefused, fun j hj hr => ⟨entryWith fs (base s j), ?_⟩⟩
    obtain ⟨hvalid, hdirection, hports⟩ := entryWith_fields fs (base s j)
    obtain ⟨v1, v2, v3, v4⟩ := vlanField_cases fs (base s j).vlan
    obtain ⟨a1, a2, a3, a4⟩ := actionField_cases fs (base s j).action
    refine ⟨hvalid, hdirection, hports, v1, v2, v3, v4, typeField_eq fs (base s j).etype, a1, a2, a3, a4, ?_⟩
    rw [hbase]
    exact hdone j hj hr

end Sys2Proof.RuleDirections
end

section
/-! The directives that read (R34, R53, R92, R164), and the settings of ports and lanes (R110, R111, R114, R131 to R138). -/

namespace Sys2Proof.LineDirections
open Sys2Proof.Machine Sys2Proof.Safety Sys2Proof.ChannelSettings

/-! ### The directives that read (R34, R53, R92, R164) -/

section reads
variable {ops : List Byte} {s : State}

theorem dirChanRead_format (h : ops.length ≠ 2) : dirChanRead ops s = dirRefused .format s := if_pos h

theorem dirChanRead_range (hlen : ops.length = 2) (h : 1024 ≤ numAt ops 0 2) : dirChanRead ops s = dirRefused .range s := by
  unfold dirChanRead
  rw [if_neg (not_not.2 hlen), chanOf_ge h]

theorem dirChanRead_done {c : Chan} (hlen : ops.length = 2) (hc : c.val = numAt ops 0 2) :
    dirChanRead ops s = dirDone (chanReadBytes s.time (s.chan c)) s := by
  unfold dirChanRead
  rw [if_neg (not_not.2 hlen), chanOf_val hc]

theorem dirTimeRead_eq : dirTimeRead ops s = if ops = [] then dirDone (beBytes 8 s.time.toNat) s else dirRefused .format s := by
  cases ops <;> rfl

theorem dirStatusRead_eq : dirStatusRead ops s = if ops = [] then dirDone (statusBytes s) s else dirRefused .format s := by
  cases ops <;> rfl

theorem dirRuleRead_format (h : ops.length ≠ 3) : dirRuleRead ops s = dirRefused .format s := if_pos h

theorem dirRuleRead_active {i : Fin 256} (hlen : ops.length = 3) (hi : i.val = numAt ops 1 2) (h : numAt ops 0 1 = 0) : dirRuleRead ops s =
    dirDone ([0] ++ beBytes 2 i.val ++ entryBytes (Config.absentType s.free) s.active[i] ++ beBytes 6 s.hits[i].toNat) (nextFree s) := by
  unfold dirRuleRead
  rw [if_neg (not_not.2 hlen)]
  simp only [h, indexOf_val hi]

theorem dirRuleRead_shadow {i : Fin 256} (hlen : ops.length = 3) (hi : i.val = numAt ops 1 2) (h : numAt ops 0 1 = 1) : dirRuleRead ops s =
    dirDone ([1] ++ beBytes 2 i.val ++ entryBytes (Config.absentType s.free) s.shadow[i]) (nextFree s) := by
  unfold dirRuleRead
  rw [if_neg (not_not.2 hlen)]
  simp only [h, indexOf_val hi]

theorem dirRuleRead_range (hlen : ops.length = 3) (h : 2 ≤ numAt ops 0 1 ∨ 256 ≤ numAt ops 1 2) : dirRuleRead ops s = dirRefused .range s := by
  unfold dirRuleRead
  rw [if_neg (not_not.2 hlen)]
  by_cases hge : 256 ≤ numAt ops 1 2
  · rw [indexOf_ge hge]
    split
    · next hno => cases hno
    · next hno => cases hno
    · rfl
  · have hbank := h.resolve_right hge
    split
    · next h0 _ => omega
    · next h1 _ => omega
    · rfl

end reads

/-- Settles O47. -/
theorem readDirectives : Obligations.ReadDirectives := by
  refine ⟨fun ops s hready => ⟨fun h => ?_, fun hlen h => ?_, fun c hlen hc => ?_⟩, fun ops s hready => ?_, fun ops s hready => ?_,
    fun ops s hready => ⟨fun h => ?_, fun hlen h => ?_, fun i hlen hi => ⟨fun h => ?_, fun h => ?_⟩⟩⟩
  · exact directive_ends rfl hready (dirChanRead_format h)
  · exact directive_ends rfl hready (dirChanRead_range hlen h)
  · exact directive_ends rfl hready (dirChanRead_done hlen hc)
  · split
    · next h => exact directive_ends rfl hready (dirTimeRead_eq.trans (if_pos h))
    · next h => exact directive_ends rfl hready (dirTimeRead_eq.trans (if_neg h))
  · split
    · next h => exact directive_ends rfl hready (dirStatusRead_eq.trans (if_pos h))
    · next h => exact directive_ends rfl hready (dirStatusRead_eq.trans (if_neg h))
  · exact directive_ends rfl hready (dirRuleRead_format h)
  · exact directive_ends rfl hready (dirRuleRead_range hlen h)
  · exact directive_ends rfl hready (dirRuleRead_active hlen hi h)
  · exact directive_ends rfl hready (dirRuleRead_shadow hlen hi h)

/-! ### PORT-SET (R110, R111, R114) -/

section ports
variable {ops : List Byte} {s : State} {fs : FieldList} {p : Port}

theorem dirPortSet_format (h : ops.length < 1 ∨ fieldList portFields (ops.drop 1) = none) : dirPortSet ops s = dirRefused .format s := by
  unfold dirPortSet
  split
  · rfl
  · next hlen => rw [h.resolve_left hlen]

theorem dirPortSet_port {n : PortId} (hlen : 1 ≤ ops.length) (hfs : fieldList portFields (ops.drop 1) = some fs) (hn : n.val = numAt ops 0 1) :
    dirPortSet ops s = if flagInRange fs 3 = false then dirRefused .range s
      else dirDone (portSetBytes n (portWith fs (s.port n))) (s.updPort n (portWith fs)) := by
  unfold dirPortSet
  rw [if_neg (by omega), hfs, portIdOf_val hn]

theorem dirPortSet_range (hlen : 1 ≤ ops.length) (hfs : fieldList portFields (ops.drop 1) = some fs) (h : 4 ≤ numAt ops 0 1 ∨ flagInRange fs 3 = false) :
    dirPortSet ops s = dirRefused .range s := by
  by_cases hge : 4 ≤ numAt ops 0 1
  · unfold dirPortSet
    rw [if_neg (by omega), hfs, portIdOf_ge hge]
  · rw [dirPortSet_port (n := ⟨numAt ops 0 1, by omega⟩) hlen hfs rfl, if_pos (h.resolve_left hge)]

/-- The settings of a port before its pause record is judged (R110, R114). -/
def portSettings (fs : FieldList) (p : Port) : Port :=
  { p with
    xoff := ((fieldNat fs 1).map fun v => max 9244 (min 515044 v)).getD p.xoff
    xon := min ((fieldNat fs 2).getD p.xon) (((fieldNat fs 1).map fun v => max 9244 (min 515044 v)).getD p.xoff - 1)
    pauseEnable := ((fieldNat fs 3).map (· != 0)).getD p.pauseEnable }

theorem portWith_eq (fs : FieldList) (p : Port) : portWith fs p = judgePortSet (portSettings fs p) := by
  unfold portWith portSettings
  rw [flagField_eq]
  cases fieldNat fs 1 <;> rfl

theorem endPause_eq (p : Port) : endPause p = { p with inForce := false, pendingPause := if p.announced then .off else .none, refresh := none } := by
  unfold endPause
  split <;> rfl

theorem judgePortSet_begins (he : p.pauseEnable = true) (hf : p.inForce = false) (hx : p.xoff ≤ bufOccupancy p) : judgePortSet p = beginPause p := by
  unfold judgePortSet
  rw [he, hf]
  exact if_pos hx

theorem judgePortSet_ends (hf : p.inForce = true) (h : p.pauseEnable = false ∨ bufOccupancy p ≤ p.xon) : judgePortSet p = endPause p := by
  unfold judgePortSet
  rw [hf]
  cases he : p.pauseEnable with
  | false => rfl
  | true => exact if_pos (h.resolve_left (by rw [he]; decide))

theorem judgePortSet_stays (h : p.inForce = false ∧ (p.pauseEnable = false ∨ bufOccupancy p < p.xoff) ∨
    p.inForce = true ∧ p.pauseEnable = true ∧ p.xon < bufOccupancy p) : judgePortSet p = p := by
  unfold judgePortSet
  rcases h with ⟨hf, h⟩ | ⟨hf, he, h⟩
  · rw [hf]
    cases he : p.pauseEnable with
    | false => rfl
    | true => exact if_neg (Nat.not_le.2 (h.resolve_left (by rw [he]; decide)))
  · rw [hf, he]
    exact if_neg (Nat.not_le.2 h)

theorem judgePortSet_frame (p : Port) :
    judgePortSet p = { p with inForce := (judgePortSet p).inForce, pendingPause := (judgePortSet p).pendingPause, refresh := (judgePortSet p).refresh } := by
  cases hf : p.inForce with
  | true =>
    by_cases h : p.pauseEnable = false ∨ bufOccupancy p ≤ p.xon
    · rw [judgePortSet_ends hf h, endPause_eq]
    · rw [judgePortSet_stays (.inr ⟨hf, by simpa using (not_or.1 h).1, Nat.not_le.1 (not_or.1 h).2⟩)]
  | false =>
    by_cases h : p.pauseEnable = false ∨ bufOccupancy p < p.xoff
    · rw [judgePortSet_stays (.inl ⟨hf, h⟩)]
    · rw [judgePortSet_begins (by simpa using (not_or.1 h).1) hf (Nat.not_lt.1 (not_or.1 h).2), beginPause]

end ports

/-! ### LANE-SET (R131 to R135, R138) -/

section lanes
variable {ops : List Byte} {s : State} {fs : FieldList}

theorem dirLaneSet_format (h : fieldList laneFields ops = none) : dirLaneSet ops s = dirRefused .format s := by
  unfold dirLaneSet
  rw [h]

theorem dirLaneSet_fields (h : fieldList laneFields ops = some fs) : dirLaneSet ops s =
    if flagInRange fs 3 = false ∨ laneOrClear fs 4 = false ∨ laneOrClear fs 5 = false then dirRefused .range s
    else if s.role = .campus ∧ (given fs 3 = true ∨ given fs 4 = true ∨ given fs 5 = true) then dirRefused .state s
    else dirDone (laneSetBytes (runArbiter (s.updProt (laneSettings fs))).prot) (runArbiter (s.updProt (laneSettings fs))) := by
  unfold dirLaneSet
  rw [h]

theorem laneOrClear_false_iff (fs : FieldList) (i : Nat) : laneOrClear fs i = false ↔ ∃ v, fieldNat fs i = some v ∧ 4 ≤ v ∧ v ≠ 255 := by
  unfold laneOrClear
  cases fieldNat fs i <;> simp

theorem laneSet_bad_iff (fs : FieldList) : (flagInRange fs 3 = false ∨ laneOrClear fs 4 = false ∨ laneOrClear fs 5 = false) ↔
    flagInRange fs 3 = false ∨ ∃ i v, (i = 4 ∨ i = 5) ∧ fieldNat fs i = some v ∧ 4 ≤ v ∧ v ≠ 255 := by
  rw [laneOrClear_false_iff, laneOrClear_false_iff]
  refine or_congr Iff.rfl ⟨?_, ?_⟩
  · rintro (⟨v, h⟩ | ⟨v, h⟩)
    · exact ⟨4, v, .inl rfl, h⟩
    · exact ⟨5, v, .inr rfl, h⟩
  · rintro ⟨i, v, rfl | rfl, h⟩
    · exact .inl ⟨v, h⟩
    · exact .inr ⟨v, h⟩

theorem laneSettings_fields (fs : FieldList) (p : Protection) :
    (laneSettings fs p).interval = ((fieldNat fs 1).map fun v => max 1 (min 1000 v)).getD p.interval ∧
    (laneSettings fs p).wtrSetting = ((fieldNat fs 2).map fun v => min v 3600).getD p.wtrSetting ∧
    (laneSettings fs p).lockout = ((fieldNat fs 3).map (· != 0)).getD p.lockout ∧
    (laneSettings fs p).force = ((fieldNat fs 4).map portIdOf).getD p.force ∧ (laneSettings fs p).manual = ((fieldNat fs 5).map portIdOf).getD p.manual := by
  have hforce : ∀ i now, forceField fs i now = ((fieldNat fs i).map portIdOf).getD now := fun i now => by
    unfold forceField
    cases fieldNat fs i <;> rfl
  refine ⟨?_, ?_, flagField_eq fs 3 p.lockout, hforce 4 p.force, hforce 5 p.manual⟩
  · unfold laneSettings
    cases fieldNat fs 1 <;> rfl
  · unfold laneSettings
    cases fieldNat fs 2 <;> rfl

/-- A run of the arbiter keeps the settings it judges by. -/
theorem runArbiter_settings (s : State) : (runArbiter s).prot.interval = s.prot.interval ∧ (runArbiter s).prot.wtrSetting = s.prot.wtrSetting ∧
    (runArbiter s).prot.lockout = s.prot.lockout ∧ (runArbiter s).prot.force = s.prot.force ∧ (runArbiter s).prot.manual = s.prot.manual := by
  have h := (runArbiter_switched s).2
  refine ⟨?_, ?_, ?_, ?_, ?_⟩ <;> rw [h]

end lanes

/-- Settles O44: each directive by its refusals, then the record judged and the arbiter run. -/
theorem portAndLaneSettings : Obligations.PortAndLaneSettings := by
  refine ⟨fun ops s hready => ⟨fun h => ?_, fun fs hlen hfs => ⟨fun h => ?_, fun n hn h3 => ?_⟩⟩, fun ops s hready => ⟨fun h => ?_, fun fs hfs => ?_⟩⟩
  · exact directive_ends rfl hready (dirPortSet_format h)
  · exact directive_ends rfl hready (dirPortSet_range hlen hfs h)
  · have hset : (taken s).updPort n (fun _ => portWith fs (s.port n)) = (taken s).updPort n (portWith fs) := State.updPort_congr _ rfl
    have hframe := judgePortSet_frame (portSettings fs (s.port n))
    have hbytes : portSetBytes n (portWith fs (s.port n)) = [BitVec.ofNat 8 n.val] ++ beBytes 4 (portSettings fs (s.port n)).xoff ++
        beBytes 4 (portSettings fs (s.port n)).xon ++ [if (portSettings fs (s.port n)).pauseEnable then 1 else 0] := by
      rw [portWith_eq, hframe]
      rfl
    refine ⟨_, _, _, portWith fs (s.port n), rfl, rfl, rfl, ?_, ?_, fun ⟨he, hf, hx⟩ => ?_, fun ⟨hf, h⟩ => ?_, fun h => ?_⟩
    · rw [hset]
      refine directive_ends rfl hready ((dirPortSet_port hlen hfs hn).trans ((if_neg (by rw [h3]; decide)).trans ?_))
      rw [taken_port, hbytes]
      rfl
    · rw [portWith_eq, hframe]
      rfl
    · rw [portWith_eq, judgePortSet_begins (p := portSettings fs (s.port n)) he hf hx]
      exact ⟨rfl, rfl, rfl⟩
    · rw [portWith_eq, judgePortSet_ends (p := portSettings fs (s.port n)) hf h, endPause_eq]
      exact ⟨rfl, rfl, rfl⟩
    · rw [portWith_eq, judgePortSet_stays (p := portSettings fs (s.port n)) h]
      exact ⟨rfl, rfl, rfl⟩
  · exact directive_ends rfl hready (dirLaneSet_format h)
  · refine ⟨_, rfl, fun hbad => ?_, fun hok hr hgiven => ?_, fun hok h => ?_⟩
    · exact directive_ends rfl hready ((dirLaneSet_fields hfs).trans (if_pos ((laneSet_bad_iff fs).2 hbad)))
    · exact directive_ends rfl hready ((dirLaneSet_fields hfs).trans ((if_neg fun hb => hok ((laneSet_bad_iff fs).1 hb)).trans (if_pos ⟨hr, hgiven⟩)))
    · have hno : ¬ ((taken s).role = .campus ∧ (given fs 3 = true ∨ given fs 4 = true ∨ given fs 5 = true)) := by
        rintro ⟨hr, hgiven⟩
        rcases h with h | ⟨h3, h4, h5⟩
        · rw [taken_role, h] at hr
          cases hr
        · rw [h3, h4, h5] at hgiven
          simp at hgiven
      obtain ⟨hinterval, hwtr, hlockout, hforce, hmanual⟩ := runArbiter_settings ((taken s).updProt (laneSettings fs))
      obtain ⟨finterval, fwtr, flockout, fforce, fmanual⟩ := laneSettings_fields fs s.prot
      obtain ⟨hlanes, -, -, hframe⟩ := (runArbiter_switched ((taken s).updProt (laneSettings fs))).1
      refine ⟨runArbiter ((taken s).updProt (laneSettings fs)), ?_, hinterval.trans finterval, hwtr.trans fwtr, hlockout.trans flockout,
        hforce.trans fforce, hmanual.trans fmanual, ⟨(taken s).updProt (laneSettings fs), ?_, fun hr => Switching.arbiterRan (s := (taken s).updProt (laneSettings fs)) hr,
          fun hr => Switching.runArbiter_campus (s := (taken s).updProt (laneSettings fs)) hr⟩, fun k => ?_, hframe⟩
      · exact directive_ends rfl hready ((dirLaneSet_fields hfs).trans ((if_neg fun hb => hok ((laneSet_bad_iff fs).1 hb)).trans (if_neg hno)))
      · rw [hinterval, hwtr, hlockout, hforce, hmanual]
        rfl
      · have hcut := hlanes k
        refine ⟨?_, ?_, ?_, ?_, ?_⟩ <;> rw [hcut.1] <;> rfl

end Sys2Proof.LineDirections
end

section
/-! The directives of the loopbacks and of the test units (R129, R131, R143 to R146, R149, R151, R153). -/

namespace Sys2Proof.LoopDirections
open Sys2Proof.Machine Sys2Proof.Safety Sys2Proof.ChannelSettings Sys2Proof.Switching Sys2Proof.BeaconStages

/-! ### What commutes with a run of the arbiter -/

section commute
variable {s : State} {k : LaneId} {g : Lane → Lane}

/-- A change of a lane's record that a run of the arbiter neither reads nor undoes. -/
def Neutral (g : Lane → Lane) : Prop :=
  ∀ l, (g l).tx = l.tx ∧ (g l).state = l.state ∧ (g l).loopMode = l.loopMode ∧
    g (({ l with tx := none } : Lane).count .lostOnSwitch) = ({ g l with tx := none } : Lane).count .lostOnSwitch

theorem updLane_comm {j : LaneId} (h : j ≠ k) (f g : Lane → Lane) : (s.updLane j f).updLane k g = (s.updLane k g).updLane j f := by
  have hval : j.val ≠ k.val := fun e => h (Fin.ext e)
  unfold State.updLane
  simp [Vector.getElem_set_ne, hval, hval.symm, Vector.set_comm _ _ hval]

theorem lane_updLane_neutral (hg : Neutral g) (j : LaneId) : ((s.updLane k g).lane j).tx = (s.lane j).tx ∧
    ((s.updLane k g).lane j).state = (s.lane j).state ∧ ((s.updLane k g).lane j).loopMode = (s.lane j).loopMode := by
  rw [State.updLane_lane]
  split
  · obtain ⟨h1, h2, h3, -⟩ := hg (s.lane j)
    exact ⟨h1, h2, h3⟩
  · exact ⟨rfl, rfl, rfl⟩

theorem cutBuffer_updLane (hg : Neutral g) (j : LaneId) (n : PortId) : cutBuffer j n (s.updLane k g) = (cutBuffer j n s).updLane k g := by
  obtain ⟨htx, -⟩ := lane_updLane_neutral (s := s) (k := k) hg j
  unfold cutBuffer
  rw [htx]
  split
  · split
    · by_cases hj : j = k
      · subst hj
        rw [State.updLane_updLane, State.updLane_updLane]
        refine State.updLane_congr _ ?_
        obtain ⟨-, -, -, h⟩ := hg (s.lane j)
        exact h.symm
      · exact (updLane_comm hj _ _).symm
    · rfl
  · rfl

theorem moveBridging_updLane (hg : Neutral g) (a b : Option PortId) : moveBridging a b (s.updLane k g) = (moveBridging a b s).updLane k g := by
  unfold moveBridging
  cases a <;> cases b <;> simp only [cutBuffer_updLane hg] <;> rfl

theorem laneFailed_updLane (hg : Neutral g) (j : LaneId) : laneFailed (s.updLane k g) j = laneFailed s j := by
  obtain ⟨-, hstate, -⟩ := lane_updLane_neutral (s := s) (k := k) hg j
  unfold laneFailed
  rw [hstate]

theorem judgeClass_updLane (hg : Neutral g) (n : PortId) : judgeClass (s.updLane k g) n = judgeClass s n := by
  have hfailed : workingFailed (s.updLane k g) n = workingFailed s n := by
    unfold workingFailed
    rw [laneFailed_updLane hg]
    rfl
  unfold judgeClass
  rw [hfailed]
  rfl

theorem standbyAvailable_updLane (hg : Neutral g) : standbyAvailable (s.updLane k g) = standbyAvailable s := by
  obtain ⟨-, hstate, hmode⟩ := lane_updLane_neutral (s := s) (k := k) hg standby
  unfold standbyAvailable
  rw [hstate, hmode]
  rfl

theorem judgedClasses_updLane (hg : Neutral g) : judgedClasses (s.updLane k g) = judgedClasses s := by
  unfold judgedClasses
  rw [judgeClass_updLane hg, judgeClass_updLane hg, judgeClass_updLane hg, judgeClass_updLane hg]

theorem chosen_updLane (hg : Neutral g) : chosen (s.updLane k g) = chosen s := by
  unfold chosen
  rw [standbyAvailable_updLane hg, judgedClasses_updLane hg]
  rfl

/-- A neutral change of a lane may come before or after a run of the arbiter. -/
theorem runArbiter_updLane (hg : Neutral g) : runArbiter (s.updLane k g) = (runArbiter s).updLane k g := by
  cases hr : s.role with
  | campus => rw [runArbiter_campus hr, runArbiter_campus (s := s.updLane k g) hr]
  | rack =>
    by_cases hsel : chosen s = s.prot.selection
    · rw [runArbiter_kept hr hsel, runArbiter_kept (s := s.updLane k g) hr ((chosen_updLane hg).trans hsel), judgedClasses_updLane hg]
      rfl
    · have hleft : leftClasses (s.updLane k g) = leftClasses s := by
        unfold leftClasses
        rw [judgedClasses_updLane hg]
        rfl
      rw [runArbiter_moves hr hsel, runArbiter_moves (s := s.updLane k g) hr fun h => hsel ((chosen_updLane hg).symm.trans h), hleft, chosen_updLane hg]
      exact moveBridging_updLane (s := s.updProt fun p => { p with classes := leftClasses s, wtrTimer := none, selection := chosen s }) hg _ _

theorem cutBuffer_reportDevice (d : Kind) (j : LaneId) (n : PortId) : cutBuffer j n (reportDevice d s) = reportDevice d (cutBuffer j n s) := by
  unfold cutBuffer
  rw [reportDevice_lane]
  split
  · split <;> rfl
  · rfl

theorem reportDevice_comm (d e : Kind) : reportDevice d (reportDevice e s) = reportDevice e (reportDevice d s) := by
  unfold reportDevice
  rw [State.updAgent_updAgent, State.updAgent_updAgent]
  have hcomm : (fun a : Agent => { a with devices := a.devices ||| kindBit e ||| kindBit d }) =
      fun a : Agent => { a with devices := a.devices ||| kindBit d ||| kindBit e } := funext fun a => by
    rw [BitVec.or_assoc, BitVec.or_comm (kindBit e), ← BitVec.or_assoc]
  exact congrArg s.updAgent hcomm

theorem moveBridging_reportDevice (d : Kind) (a b : Option PortId) : moveBridging a b (reportDevice d s) = reportDevice d (moveBridging a b s) := by
  unfold moveBridging
  cases a <;> cases b <;> simp only [cutBuffer_reportDevice] <;> rw [reportDevice_comm]

/-- A device notice may be set before or after a run of the arbiter. -/
theorem runArbiter_reportDevice (d : Kind) : runArbiter (reportDevice d s) = reportDevice d (runArbiter s) := by
  cases hr : s.role with
  | campus => rw [runArbiter_campus hr, runArbiter_campus (s := reportDevice d s) hr]
  | rack =>
    by_cases hsel : chosen s = s.prot.selection
    · rw [runArbiter_kept hr hsel, runArbiter_kept (s := reportDevice d s) hr hsel]
      rfl
    · rw [runArbiter_moves hr hsel, runArbiter_moves (s := reportDevice d s) hr hsel]
      exact moveBridging_reportDevice (s := s.updProt fun p => { p with classes := leftClasses s, wtrTimer := none, selection := chosen s }) d _ _

end commute

/-! ### LOOP-SET (R129, R143 to R146) -/

section loopSet
variable {s : State} {k : LaneId} {fs : FieldList} {ops : List Byte} {begins endsLine endsCipher : Bool}

/-- A lane of which LOOP-SET began or ended a loopback (R129, R144 to R146). -/
def moded (s : State) (begins endsLine endsCipher : Bool) (l : Lane) : Lane :=
  { if endsLine then l.count .loopOverrun l.returnQueue.length else l with
    loopMode := if begins then .cipher else if endsLine || endsCipher then .none else l.loopMode
    loopRun := if begins || endsLine then none else l.loopRun
    peerRun := if begins then 0 else l.peerRun
    continuity := if begins then none
      else if endsCipher ∧ l.state ≠ .los then some { start := s.time, len := 350 * s.prot.interval } else l.continuity
    returnQueue := if endsLine then [] else l.returnQueue }

/-- The arbiter after a change of L4's loop mode (R131). -/
def arbitratedFor (k : LaneId) (s : State) : State := if k = 4 then runArbiter s else s

/-- The state in which LOOP-SET runs the arbiter (R144). -/
def loopSetBefore (fs : FieldList) (k : LaneId) (begins endsLine endsCipher : Bool) (s : State) : State :=
  (s.updLane k fun l => loopSettings fs (moded s begins endsLine endsCipher l)).updAgent fun a =>
    { a with devices := a.devices ||| (if endsLine then kindBit .loop else 0) }

theorem neutral_loopSettings (fs : FieldList) : Neutral (loopSettings fs) := fun _ => ⟨rfl, rfl, rfl, rfl⟩

theorem arbitratedFor_updLane (fs : FieldList) : (arbitratedFor k s).updLane k (loopSettings fs) = arbitratedFor k (s.updLane k (loopSettings fs)) := by
  unfold arbitratedFor
  split
  · rw [runArbiter_updLane (neutral_loopSettings fs)]
  · rfl

theorem setLoopMode_arbitratedFor (m : LoopMode) : setLoopMode k m s = arbitratedFor k (s.updLane k fun l => { l with loopMode := m }) := rfl

theorem beginCipher_eq (k : LaneId) (s : State) : beginCipher k s = arbitratedFor k (s.updLane k (moded s true false false)) := by
  rw [beginCipher, setLoopMode_arbitratedFor, State.updLane_updLane]
  rfl

theorem endCipher_eq (k : LaneId) (s : State) : endCipher k s = arbitratedFor k (s.updLane k (moded s false false true)) := by
  rw [endCipher, setLoopMode_arbitratedFor]
  congr 1
  split
  · next h =>
    refine State.updLane_congr _ ?_
    simp [moded, h]
  · next h =>
    rw [restartContinuity, State.updLane_updLane]
    refine State.updLane_congr _ ?_
    simp [moded, h, startTimer]

theorem endLine_eq (k : LaneId) (s : State) :
    endLine k (s.updLane k fun l => { l with loopRun := none }) = arbitratedFor k (reportDevice .loop (s.updLane k (moded s false true false))) := by
  rw [endLine, setLoopMode_arbitratedFor, State.updLane_updLane, State.updLane_updLane]
  unfold arbitratedFor
  split
  · rw [runArbiter_reportDevice]
    rfl
  · rfl

/-- Where no LINE loopback ends, no notice is set. -/
theorem loopSetBefore_quiet : loopSetBefore fs k begins false endsCipher s = (s.updLane k (moded s begins false endsCipher)).updLane k (loopSettings fs) := by
  have hagent : (fun a : Agent => { a with devices := a.devices ||| (if false = true then kindBit .loop else 0) }) = id := funext fun a => by simp
  rw [State.updLane_updLane]
  exact congrArg (s.updLane k fun l => loopSettings fs (moded s begins false endsCipher l)).updAgent hagent

theorem loopSetBefore_false : loopSetBefore fs k false false false s = s.updLane k (loopSettings fs) := by
  rw [loopSetBefore_quiet, State.updLane_updLane]
  exact State.updLane_congr _ rfl

theorem loopSetBefore_endsLine :
    loopSetBefore fs k false true false s = (reportDevice .loop (s.updLane k (moded s false true false))).updLane k (loopSettings fs) := by
  show _ = reportDevice .loop ((s.updLane k (moded s false true false)).updLane k (loopSettings fs))
  rw [State.updLane_updLane]
  rfl

/-- The state that LOOP-SET leaves (R144). -/
theorem localMode_settings (hmost : fieldAtMost fs 1 1 = true) (hline : fieldNat fs 1 ≠ some 1 ∨ (s.lane k).loopMode ≠ .line)
    (hb : begins = (fieldNat fs 1 == some 1 && (s.lane k).loopMode == .none)) (hl : endsLine = (fieldNat fs 1 == some 0 && (s.lane k).loopMode == .line))
    (hc : endsCipher = (fieldNat fs 1 == some 0 && (s.lane k).loopMode == .cipher)) :
    (localMode fs k s).updLane k (loopSettings fs) = if begins || endsLine || endsCipher
      then arbitratedFor k (loopSetBefore fs k begins endsLine endsCipher s) else loopSetBefore fs k begins endsLine endsCipher s := by
  have hbound := (fieldAtMost_iff fs 1 1).1 hmost
  subst hb hl hc
  unfold localMode
  cases hf : fieldNat fs 1 with
  | none => exact loopSetBefore_false.symm
  | some v =>
    rw [hf] at hline
    obtain rfl | rfl : v = 0 ∨ v = 1 := by have := hbound v hf; omega
    · cases hm : (s.lane k).loopMode with
      | none => exact loopSetBefore_false.symm
      | line =>
        show (endLine k (s.updLane k fun l => { l with loopRun := none })).updLane k (loopSettings fs) = arbitratedFor k (loopSetBefore fs k false true false s)
        rw [endLine_eq, arbitratedFor_updLane, loopSetBefore_endsLine]
      | cipher =>
        show (endCipher k s).updLane k (loopSettings fs) = arbitratedFor k (loopSetBefore fs k false false true s)
        rw [endCipher_eq, arbitratedFor_updLane, loopSetBefore_quiet]
    · cases hm : (s.lane k).loopMode with
      | none =>
        show (beginCipher k s).updLane k (loopSettings fs) = arbitratedFor k (loopSetBefore fs k true false false s)
        rw [beginCipher_eq, arbitratedFor_updLane, loopSetBefore_quiet]
      | line => exact absurd hm (hline.resolve_left (not_not.2 rfl))
      | cipher => exact loopSetBefore_false.symm

theorem dirLoopSet_format (h : ops.length < 1 ∨ fieldList loopFields (ops.drop 1) = none) : dirLoopSet ops s = dirRefused .format s := by
  unfold dirLoopSet
  split
  · rfl
  · next hlen => rw [h.resolve_left hlen]

theorem dirLoopSet_lane (hlen : 1 ≤ ops.length) (hfs : fieldList loopFields (ops.drop 1) = some fs) (hk : k.val = numAt ops 0 1) : dirLoopSet ops s =
    if fieldAtMost fs 1 1 = false ∨ fieldAtMost fs 2 2 = false ∨ flagInRange fs 3 = false then dirRefused .range s
    else if fieldNat fs 1 = some 1 ∧ ((s.lane k).loopMode = .line ∨ (k = standby ∧ (bridged s).isSome)) then dirRefused .state s
    else dirDone (loopSetBytes k (((localMode fs k s).updLane k (loopSettings fs)).lane k)) ((localMode fs k s).updLane k (loopSettings fs)) := by
  unfold dirLoopSet
  rw [if_neg (by omega), hfs, laneIdOf_val hk]

theorem dirLoopSet_range (hlen : 1 ≤ ops.length) (hfs : fieldList loopFields (ops.drop 1) = some fs)
    (h : 5 ≤ numAt ops 0 1 ∨ fieldAtMost fs 1 1 = false ∨ fieldAtMost fs 2 2 = false ∨ flagInRange fs 3 = false) : dirLoopSet ops s = dirRefused .range s := by
  by_cases hge : 5 ≤ numAt ops 0 1
  · unfold dirLoopSet
    rw [if_neg (by omega), hfs, laneIdOf_ge hge]
  · rw [dirLoopSet_lane (k := ⟨numAt ops 0 1, by omega⟩) hlen hfs rfl, if_pos (h.resolve_left hge)]

theorem loopSetBefore_lane (fs : FieldList) (k : LaneId) (begins endsLine endsCipher : Bool) (s : State) :
    (loopSetBefore fs k begins endsLine endsCipher s).lane k = loopSettings fs (moded s begins endsLine endsCipher (s.lane k)) :=
  State.updLane_lane_eq (s := s) k fun l => loopSettings fs (moded s begins endsLine endsCipher l)

theorem loopSetBefore_lane_ne {j : LaneId} (hj : j ≠ k) : (loopSetBefore fs k begins endsLine endsCipher s).lane j = s.lane j :=
  (State.updLane_lane (s := s) k j fun l => loopSettings fs (moded s begins endsLine endsCipher l)).trans (if_neg hj)

theorem loopSettings_field (hmost : fieldAtMost fs 2 2 = true) (l : Lane) : (loopSettings fs l).loopField =
    if fieldNat fs 2 = none then l.loopField else if fieldNat fs 2 = some 0 then .none else if fieldNat fs 2 = some 1 then .request else .release := by
  have hbound := (fieldAtMost_iff fs 2 2).1 hmost
  unfold loopSettings
  cases hf : fieldNat fs 2 with
  | none => rfl
  | some v =>
    obtain rfl | rfl | rfl : v = 0 ∨ v = 1 ∨ v = 2 := by have := hbound v hf; omega
    · rfl
    · rfl
    · rfl

theorem loopSettings_persistence (fs : FieldList) (l : Lane) :
    (loopSettings fs l).persistence = ((fieldNat fs 4).map fun v => max 1 (min 60 v)).getD l.persistence := by
  unfold loopSettings
  cases fieldNat fs 4 <;> rfl

theorem moded_loopMode (hmost : fieldAtMost fs 1 1 = true) (hline : fieldNat fs 1 ≠ some 1 ∨ (s.lane k).loopMode ≠ .line)
    (hb : begins = (fieldNat fs 1 == some 1 && (s.lane k).loopMode == .none)) (hl : endsLine = (fieldNat fs 1 == some 0 && (s.lane k).loopMode == .line))
    (hc : endsCipher = (fieldNat fs 1 == some 0 && (s.lane k).loopMode == .cipher)) : (moded s begins endsLine endsCipher (s.lane k)).loopMode =
      if fieldNat fs 1 = none then (s.lane k).loopMode else if fieldNat fs 1 = some 0 then .none else .cipher := by
  have hbound := (fieldAtMost_iff fs 1 1).1 hmost
  subst hb hl hc
  unfold moded
  cases hf : fieldNat fs 1 with
  | none => rfl
  | some v =>
    rw [hf] at hline
    obtain rfl | rfl : v = 0 ∨ v = 1 := by have := hbound v hf; omega
    · cases (s.lane k).loopMode <;> rfl
    · cases hm : (s.lane k).loopMode with
      | none => rfl
      | line => exact absurd hm (hline.resolve_left (not_not.2 rfl))
      | cipher => rfl

/-- What LOOP-SET leaves of the rest of the lane's record before the arbiter. -/
theorem loopSettings_moded (fs : FieldList) (s : State) (begins endsLine endsCipher : Bool) (l : Lane) :
    (loopSettings fs (moded s begins endsLine endsCipher l)).autoAccept = ((fieldNat fs 3).map (· != 0)).getD l.autoAccept ∧
    (loopSettings fs (moded s begins endsLine endsCipher l)).persistence = ((fieldNat fs 4).map fun v => max 1 (min 60 v)).getD l.persistence ∧
    (loopSettings fs (moded s begins endsLine endsCipher l)).loopRun =
      (if begins ∨ endsLine ∨ fieldNat fs 2 = some 1 ∨ fieldNat fs 3 = some 0 then none else l.loopRun) ∧
    (loopSettings fs (moded s begins endsLine endsCipher l)).counters =
      (if endsLine then l.count .loopOverrun l.returnQueue.length else l).counters ∧
    (moded s begins endsLine endsCipher l).loopField = l.loopField ∧
    loopSettings fs (moded s begins endsLine endsCipher l) = { l with
      loopMode := (loopSettings fs (moded s begins endsLine endsCipher l)).loopMode
      loopField := (loopSettings fs (moded s begins endsLine endsCipher l)).loopField
      autoAccept := (loopSettings fs (moded s begins endsLine endsCipher l)).autoAccept
      persistence := (loopSettings fs (moded s begins endsLine endsCipher l)).persistence
      loopRun := (loopSettings fs (moded s begins endsLine endsCipher l)).loopRun
      peerRun := (loopSettings fs (moded s begins endsLine endsCipher l)).peerRun
      continuity := (loopSettings fs (moded s begins endsLine endsCipher l)).continuity
      returnQueue := (loopSettings fs (moded s begins endsLine endsCipher l)).returnQueue
      counters := (loopSettings fs (moded s begins endsLine endsCipher l)).counters } := by
  refine ⟨?_, ?_, ?_, ?_, ?_, ?_⟩
  · refine (flagField_eq fs 3 _).trans ?_
    cases endsLine <;> rfl
  · rw [loopSettings_persistence]
    cases endsLine <;> rfl
  · show (if fieldNat fs 2 = some 1 ∨ fieldNat fs 3 = some 0 then none else if (begins || endsLine) = true then none else l.loopRun) = _
    cases begins <;> cases endsLine <;> simp
  · cases endsLine <;> rfl
  · cases endsLine <;> rfl
  · cases endsLine <;> rfl

/-- What is left of the arbiter's run, whether it was made or not. -/
theorem switched_arbitratedFor (changed : Bool) (k : LaneId) (u : State) : Switched u (if changed then arbitratedFor k u else u) := by
  unfold arbitratedFor
  split
  · split
    · exact (runArbiter_switched u).1
    · exact Switched.refl u
  · exact Switched.refl u

/-- Eight bytes of a time or of all ones at an offset (R177). -/
theorem timeAt_of_slice {d : List Byte} {off : Nat} {t : Option Time} (h : slice d off 8 = timeOrOnes t) : TimeAt d off t := by
  refine ⟨fun v hv => ?_, fun hn => ?_⟩
  · rw [FieldAt, h, hv]; rfl
  · rw [h, hn]; rfl

theorem flagByte_eq (b : Bool) : flagByte b = BitVec.ofNat 8 b.toNat := by cases b <;> rfl

/-- The data of LOOP-SET (R143, R144). -/
theorem loopSetBytes_layout (k : LaneId) (l : Lane) : (loopSetBytes k l).length = 14 ∧ FieldAt (loopSetBytes k l) 0 1 k.val ∧
    FieldAt (loopSetBytes k l) 1 1 (loopModeCode l.loopMode) ∧ FieldAt (loopSetBytes k l) 2 1 (loopCode l.loopField) ∧
    FieldAt (loopSetBytes k l) 3 1 l.autoAccept.toNat ∧ FieldAt (loopSetBytes k l) 4 1 l.persistence ∧
    FieldAt (loopSetBytes k l) 5 1 ((l.loopRun.map fun r => loopCode r.1).getD 0) ∧ TimeAt (loopSetBytes k l) 6 (l.loopRun.map (·.2)) := by
  have hcode : ∀ f, loopFieldCode f = loopCode f := fun f => by cases f <;> rfl
  refine ⟨by simp, rfl, rfl, ?_, ?_, rfl, ?_, timeAt_of_slice ?_⟩
  · rw [← hcode]; rfl
  · show [flagByte l.autoAccept] = [BitVec.ofNat 8 l.autoAccept.toNat]
    rw [flagByte_eq]
  · cases hr : l.loopRun with
    | none => simp [FieldAt, loopSetBytes, hr, slice]; rfl
    | some r => simp [FieldAt, loopSetBytes, hr, slice, hcode]; rfl
  · show (timeOrOnes (l.loopRun.map Prod.snd)).take 8 = _
    exact List.take_of_length_le (by simp)

end loopSet

/-! ### TEST-SET and TEST-INJECT (R149, R151, R153) -/

section tests
variable {s : State} {k : LaneId} {fs : FieldList} {ops : List Byte}

theorem dirTestSet_format (h : ops.length < 2 ∨ fieldList testFields (ops.drop 2) = none) : dirTestSet ops s = dirRefused .format s := by
  unfold dirTestSet
  split
  · rfl
  · next hlen => rw [h.resolve_left hlen]

theorem dirTestSet_range (hlen : 2 ≤ ops.length) (hfs : fieldList testFields (ops.drop 2) = some fs) (h : 5 ≤ numAt ops 0 1 ∨ 2 ≤ numAt ops 1 1) :
    dirTestSet ops s = dirRefused .range s := by
  unfold dirTestSet
  rw [if_neg (by omega), hfs]
  dsimp only
  rcases h with h | h
  · rw [laneIdOf_ge h]
  · rw [Keys.flagOf_gt h]
    split
    · next hno => cases hno
    · rfl

theorem dirTestSet_done {on : Bool} (hlen : 2 ≤ ops.length) (hfs : fieldList testFields (ops.drop 2) = some fs) (hk : k.val = numAt ops 0 1)
    (hon : numAt ops 1 1 = if on then 1 else 0) :
    dirTestSet ops s = dirDone (testSetBytes k (testWith s on fs (s.lane k))) (s.updLane k (testWith s on fs)) := by
  have hflag : flagOf (numAt ops 1 1) = some on := by
    rw [hon]
    cases on <;> rfl
  unfold dirTestSet
  rw [if_neg (by omega), hfs]
  dsimp only
  rw [laneIdOf_val hk, hflag]

theorem testRates_fields (fs : FieldList) (l : Lane) : testRates fs l = { l with
    rate := ((fieldNat fs 1).map fun v => max 1 (min 100000 v)).getD l.rate
    innerLen := ((fieldNat fs 2).map fun v => max 64 (min 1500 v)).getD l.innerLen } := by
  unfold testRates
  cases fieldNat fs 1 <;> cases fieldNat fs 2 <;> rfl

/-- The generator and the checker that TEST-SET leaves (R149, R153). -/
theorem testWith_eq (s : State) (on : Bool) (fs : FieldList) (l : Lane) : testWith s on fs l =
    if on then { l with
      genOn := true, rate := ((fieldNat fs 1).map fun v => max 1 (min 100000 v)).getD l.rate
      innerLen := ((fieldNat fs 2).map fun v => max 64 (min 1500 v)).getD l.innerLen, pattern := BitVec.allOnes 23, inject := .none
      rateTimer := some { start := s.time, len := 1000000 / ((fieldNat fs 1).map fun v => max 1 (min 100000 v)).getD l.rate }
      locked := false, goodRun := 0, judged := [] }
    else { l with
      genOn := false, rate := ((fieldNat fs 1).map fun v => max 1 (min 100000 v)).getD l.rate
      innerLen := ((fieldNat fs 2).map fun v => max 64 (min 1500 v)).getD l.innerLen, inject := .none, rateTimer := none } := by
  unfold testWith
  rw [testRates_fields]
  rfl

theorem injectOf_gt {n : Nat} (h : 2 ≤ n) : injectOf n = none := by
  unfold injectOf
  split
  · omega
  · omega
  · rfl

theorem dirTestInject_format (h : ops.length ≠ 2) : dirTestInject ops s = dirRefused .format s := if_pos h

theorem dirTestInject_range (hlen : ops.length = 2) (h : 5 ≤ numAt ops 0 1 ∨ 2 ≤ numAt ops 1 1) : dirTestInject ops s = dirRefused .range s := by
  unfold dirTestInject
  rw [if_neg (not_not.2 hlen)]
  rcases h with h | h
  · rw [laneIdOf_ge h]
  · rw [injectOf_gt h]
    split
    · next hno => cases hno
    · rfl

theorem dirTestInject_lane (hlen : ops.length = 2) (hk : k.val = numAt ops 0 1) (hkind : numAt ops 1 1 ≤ 1) : dirTestInject ops s =
    if (s.lane k).genOn then dirDone [] (s.updLane k fun l => { l with inject := if numAt ops 1 1 = 0 then .pattern else .tag })
    else dirRefused .state s := by
  have hinject : injectOf (numAt ops 1 1) = some (if numAt ops 1 1 = 0 then .pattern else .tag) := by
    obtain h | h : numAt ops 1 1 = 0 ∨ numAt ops 1 1 = 1 := by omega
    · rw [h]; rfl
    · rw [h]; rfl
  unfold dirTestInject
  rw [if_neg (not_not.2 hlen), laneIdOf_val hk, hinject]

end tests

/-- LOOP-SET's effect: the lane's record before the arbiter, then its run (R144). -/
theorem loopSet_done {ops : List Byte} {s : State} {fs : FieldList} {k : LaneId} (hready : Ready codeLoopSet ops s) (hlen : 1 ≤ ops.length)
    (hfs : fieldList loopFields (ops.drop 1) = some fs) (hk : k.val = numAt ops 0 1) (h1 : fieldAtMost fs 1 1 = true) (h2 : fieldAtMost fs 2 2 = true)
    (h3 : flagInRange fs 3 = true) (hno : fieldNat fs 1 ≠ some 1 ∨ (s.lane k).loopMode ≠ .line ∧ (k ≠ 4 ∨ bridged s = none)) {begins endsLine endsCipher : Bool}
    (hb : begins = (fieldNat fs 1 == some 1 && (s.lane k).loopMode == .none)) (hl : endsLine = (fieldNat fs 1 == some 0 && (s.lane k).loopMode == .line))
    (hc : endsCipher = (fieldNat fs 1 == some 0 && (s.lane k).loopMode == .cipher)) {u t : State}
    (hu : u = loopSetBefore fs k begins endsLine endsCipher (taken s)) (ht : t = if begins || endsLine || endsCipher then arbitratedFor k u else u) :
    exec (.loopSet ops) s = .next (ended codeLoopSet .done (loopSetBytes k (t.lane k)) t) := by
  have hstate : (localMode fs k (taken s)).updLane k (loopSettings fs) = t := by
    rw [ht, hu]
    exact localMode_settings h1 (hno.imp id And.left) hb hl hc
  rw [← hstate]
  refine directive_ends rfl hready ((dirLoopSet_lane hlen hfs hk).trans ((if_neg ?_).trans (if_neg ?_)))
  · rw [h1, h2, h3]
    decide
  · rintro ⟨hf, hbad⟩
    obtain ⟨hline, hbridged⟩ := hno.resolve_left (not_not.2 hf)
    rcases hbad with hbad | ⟨hk4, hsome⟩
    · exact hline hbad
    · exact Option.isSome_iff_ne_none.1 hsome (hbridged.resolve_left (not_not.2 hk4))

/-- Settles O45. -/
theorem loopAndTestDirectives : Obligations.LoopAndTestDirectives := by
  refine ⟨fun k l d hd => ?_, fun ops s hready => ⟨fun h => ?_, fun fs hlen hfs => ⟨fun h => ?_, fun k hk h1 h2 h3 => ⟨fun hf h => ?_, fun hno => ?_⟩⟩⟩,
    fun ops s hready => ⟨fun h => ?_, fun fs hlen hfs => ⟨fun h => ?_, fun k on hk hon => ?_⟩⟩,
    fun ops s hready => ⟨fun h => ?_, fun hlen h => ?_, fun k hlen hk hkind => ⟨fun h => ?_, fun h => ?_⟩⟩⟩
  · subst hd
    obtain ⟨hlen, hlane, hmode, hrest⟩ := loopSetBytes_layout k l
    refine ⟨hlen, hlane, ?_, hrest⟩
    cases hm : l.loopMode <;> rwa [hm] at hmode
  · exact directive_ends rfl hready (dirLoopSet_format h)
  · exact directive_ends rfl hready (dirLoopSet_range hlen hfs h)
  · refine directive_ends rfl hready ((dirLoopSet_lane hlen hfs hk).trans ((if_neg ?_).trans (if_pos ⟨hf, ?_⟩)))
    · rw [h1, h2, h3]
      decide
    · exact h.imp id fun ⟨hk4, hbridged⟩ => ⟨hk4, Option.isSome_iff_ne_none.2 hbridged⟩
  · obtain ⟨begins, hb⟩ : ∃ b : Bool, b = (fieldNat fs 1 == some 1 && (s.lane k).loopMode == .none) := ⟨_, rfl⟩
    obtain ⟨endsLine, hl⟩ : ∃ b : Bool, b = (fieldNat fs 1 == some 0 && (s.lane k).loopMode == .line) := ⟨_, rfl⟩
    obtain ⟨endsCipher, hc⟩ : ∃ b : Bool, b = (fieldNat fs 1 == some 0 && (s.lane k).loopMode == .cipher) := ⟨_, rfl⟩
    obtain ⟨u, hu⟩ : ∃ u, u = loopSetBefore fs k begins endsLine endsCipher (taken s) := ⟨_, rfl⟩
    obtain ⟨t, ht⟩ : ∃ t, t = if begins || endsLine || endsCipher then arbitratedFor k u else u := ⟨_, rfl⟩
    have hlane : u.lane k = loopSettings fs (moded (taken s) begins endsLine endsCipher (s.lane k)) := by
      rw [hu]
      exact loopSetBefore_lane ..
    have hothers : ∀ j, j ≠ k → u.lane j = s.lane j := fun j hj => by
      rw [hu]
      exact loopSetBefore_lane_ne hj
    have hmode := moded_loopMode (s := taken s) h1 (hno.imp id And.left) hb hl hc
    obtain ⟨haccept, hpersistence, hrun, hcounters, hfield, hframe⟩ := loopSettings_moded fs (taken s) begins endsLine endsCipher (s.lane k)
    obtain ⟨hcut, -, -, hswitched⟩ := switched_arbitratedFor (begins || endsLine || endsCipher) k u
    rw [← ht] at hcut hswitched
    refine ⟨t, u, begins, endsLine, endsCipher, loopSet_done hready hlen hfs hk h1 h2 h3 hno hb hl hc hu ht, hb, hl, hc, ?_, ?_, ?_, ?_, ?_, ?_, ?_, ?_, ?_, ?_,
      hothers, ?_, fun hk4 hr hch => ?_, fun hsame => ?_, fun j => ⟨?_, ?_, ?_⟩, ?_⟩
    · rw [hlane]
      refine hmode.trans ?_
      cases hf : fieldNat fs 1 with
      | none => rfl
      | some v => cases v <;> rfl
    · rw [hlane, loopSettings_field h2, hfield]
      cases hf : fieldNat fs 2 with
      | none => rfl
      | some v =>
        have hv := (fieldAtMost_iff fs 2 2).1 h2 v hf
        obtain rfl | rfl | rfl : v = 0 ∨ v = 1 ∨ v = 2 := by omega
        · rfl
        · rfl
        · rfl
    · rw [hlane, haccept]
    · rw [hlane, hpersistence]
    · rw [hlane, hrun]
    · rw [hlane]; rfl
    · rw [hlane]; rfl
    · rw [hlane]; rfl
    · rw [hlane, hcounters]
    · rw [hlane]
      exact hframe
    · rw [hu]; rfl
    · have hany : (begins || endsLine || endsCipher) = true := by
        rcases hch with h | h | h <;> simp [h]
      have hrole : u.role = .rack := by
        rw [hu]
        exact hr
      rw [ht, if_pos hany, arbitratedFor, if_pos hk4]
      exact arbiterRan hrole
    · rw [ht]
      split
      · next hany =>
        unfold arbitratedFor
        split
        · next hk4 =>
          have hr : s.role = .campus := (hsame.resolve_left (not_not.2 hk4)).resolve_right (by rw [hany]; decide)
          have hrole : u.role = .campus := by
            rw [hu]
            exact hr
          exact runArbiter_campus hrole
        · rfl
      · rfl
    · rw [onlyCut_state (hcut j)]
      by_cases hj : j = k
      · rw [hj, hlane, hframe]
      · rw [hothers j hj]
    · have hcontrol : (t.lane j).control = (u.lane j).control := by rw [(hcut j).1]
      rw [hcontrol]
      by_cases hj : j = k
      · rw [hj, hlane, hframe]
      · rw [hothers j hj]
    · exact onlyCut_loopMode (hcut j)
    · rw [hswitched, hu]; rfl
  · exact directive_ends rfl hready (dirTestSet_format h)
  · exact directive_ends rfl hready (dirTestSet_range hlen hfs h)
  · refine ⟨_, _, rfl, rfl, ?_⟩
    have hset := testWith_eq (taken s) on fs (s.lane k)
    refine directive_ends rfl hready ((dirTestSet_done hlen hfs hk hon).trans ?_)
    rw [taken_lane, hset]
    refine congrArg₂ dirDone ?_ (State.updLane_congr _ hset)
    cases on <;> rfl
  · exact directive_ends rfl hready (dirTestInject_format h)
  · exact directive_ends rfl hready (dirTestInject_range hlen h)
  · exact directive_ends rfl hready ((dirTestInject_lane hlen hk hkind).trans (if_neg (by rw [taken_lane, h]; decide)))
  · exact directive_ends rfl hready ((dirTestInject_lane hlen hk hkind).trans (if_pos h))

end Sys2Proof.LoopDirections
end

section
/-! The counter directives: COUNT-SWEEP and PORT-COUNTS (R20, R61, R90, R119, R141, R154, R162, R163). -/

namespace Sys2Proof.CounterDirections
open Sys2Proof.Machine Sys2Proof.Safety Sys2Proof.ChannelSettings

/-! ### Counts and their order -/

section counts

theorem Channel.ctr_count (ch : Channel) (c d : ChanCtr) (k : Nat) : (ch.count c k).ctr d = if d = c then addCounter (ch.ctr d) k else ch.ctr d :=
  (bumpAt_get ch.counters (chanCtrIdx c) (chanCtrIdx d) k).trans (if_congr ⟨chanCtrIdx_inj, congrArg _⟩ rfl rfl)

theorem Port.ctr_count (p : Port) (c d : PortCtr) (k : Nat) : (p.count c k).ctr d = if d = c then addCounter (p.ctr d) k else p.ctr d :=
  (bumpAt_get p.counters (portCtrIdx c) (portCtrIdx d) k).trans (if_congr ⟨portCtrIdx_inj, congrArg _⟩ rfl rfl)

theorem Agent.ctr_count (a : Agent) (c d : AgentCtr) (k : Nat) : (a.count c k).ctr d = if d = c then addCounter (a.ctr d) k else a.ctr d :=
  (bumpAt_get a.counters (agentCtrIdx c) (agentCtrIdx d) k).trans (if_congr ⟨agentCtrIdx_inj, congrArg _⟩ rfl rfl)

/-- A vector is its entries in the order of their indices. -/
theorem toList_eq_map {n : Nat} (v : Vector Counter n) : v.toList = (List.finRange n).map fun i => v[i] := by
  apply List.ext_getElem
  · simp
  · intro i h1 h2
    simp

end counts

/-! ### COUNT-SWEEP (R162) -/

/-- The numbers read by `n + 1` steps are the first and those of the steps after it. -/
theorem read_succ (clear : Bool) (n start size d : Nat) : (clear = true ∧ ∃ i, i < n + 1 ∧ d = (start + i) % size) ↔
    (clear = true ∧ d = start % size) ∨ (clear = true ∧ ∃ i, i < n ∧ d = (start + 1 + i) % size) := by
  rw [← and_or_left]
  refine and_congr_right fun _ => ⟨?_, ?_⟩
  · rintro ⟨i, hi, hd⟩
    cases i with
    | zero => exact .inl hd
    | succ i => exact .inr ⟨i, by omega, by rw [hd, Nat.add_assoc, Nat.add_comm 1 i]⟩
  · rintro (hd | ⟨i, hi, hd⟩)
    · exact ⟨0, by omega, hd⟩
    · exact ⟨i + 1, by omega, by rw [hd, Nat.add_assoc, Nat.add_comm 1 i]⟩

section sweep
variable {s t u : State} {clear : Bool} {ops : List Byte}

/-- From `s` to `t` the counters of the channels `read` names are 0, and nothing else changed (R162). -/
def SweptChans (read : Nat → Prop) (s t : State) : Prop :=
  (∀ c : Chan, (read c.val → t.chan c = { s.chan c with counters := Vector.replicate 13 0 }) ∧ (¬ read c.val → t.chan c = s.chan c)) ∧
  t = { s with channels := t.channels }

theorem SweptChans.refl {read : Nat → Prop} (h : ∀ i, ¬ read i) (s : State) : SweptChans read s s := ⟨fun _ => ⟨fun hr => absurd hr (h _), fun _ => rfl⟩, rfl⟩

theorem SweptChans.trans {r1 r2 read : Nat → Prop} (h1 : SweptChans r1 s u) (h2 : SweptChans r2 u t) (hread : ∀ c, read c ↔ r1 c ∨ r2 c) :
    SweptChans read s t := by
  obtain ⟨hc1, hf1⟩ := h1
  obtain ⟨hc2, hf2⟩ := h2
  refine ⟨fun c => ⟨fun hr => ?_, fun hr => ?_⟩, by rw [hf2, hf1]⟩
  · by_cases hsecond : r2 c.val
    · rw [(hc2 c).1 hsecond]
      by_cases hfirst : r1 c.val
      · rw [(hc1 c).1 hfirst]
      · rw [(hc1 c).2 hfirst]
    · rw [(hc2 c).2 hsecond, (hc1 c).1 (((hread _).1 hr).resolve_right hsecond)]
  · rw [(hc2 c).2 fun h => hr ((hread _).2 (.inr h)), (hc1 c).2 fun h => hr ((hread _).2 (.inl h))]

theorem sweepChan_swept (clear : Bool) (c : Chan) (s : State) : SweptChans (fun d => clear = true ∧ d = c.val) s (sweepChan clear c s).2 := by
  unfold sweepChan
  cases clear with
  | false => exact .refl (fun _ h => Bool.noConfusion h.1) s
  | true =>
    refine ⟨fun d => ⟨fun ⟨_, hd⟩ => ?_, fun hd => ?_⟩, rfl⟩
    · have hdc : d = c := Fin.ext hd
      subst hdc
      show (s.updChan d fun ch => { ch with counters := Vector.replicate 13 0 }).chan d = _
      rw [State.updChan_chan_eq]
    · show (s.updChan c fun ch => { ch with counters := Vector.replicate 13 0 }).chan d = _
      rw [State.updChan_chan, if_neg fun h => hd ⟨rfl, congrArg Fin.val h⟩]

theorem nextChan_ofNat (k : Nat) : nextChan (Fin.ofNat 1024 k) = Fin.ofNat 1024 (k + 1) := by
  apply Fin.ext
  simp [nextChan, Fin.ofNat]

/-- The channels of a sweep from `start` on (R162). -/
theorem sweepChans_reads (clear : Bool) (n : Nat) : ∀ (start : Nat) (s : State), n ≤ 1024 →
    (sweepChans clear n (Fin.ofNat 1024 start) s).1 = (List.range n).flatMap (fun i =>
      beBytes 2 ((start + i) % 1024) ++ counterBytes (s.chan (Fin.ofNat 1024 (start + i))).counters) ∧
    SweptChans (fun d => clear = true ∧ ∃ i, i < n ∧ d = (start + i) % 1024) s (sweepChans clear n (Fin.ofNat 1024 start) s).2 := by
  induction n with
  | zero => exact fun start s _ => ⟨rfl, .refl (fun c ⟨_, i, hi, _⟩ => absurd hi (Nat.not_lt_zero i)) s⟩
  | succ n ih =>
    intro start s hn
    have hfirst := sweepChan_swept clear (Fin.ofNat 1024 start) s
    obtain ⟨hbytes, hrest⟩ := ih (start + 1) (sweepChan clear (Fin.ofNat 1024 start) s).2 (by omega)
    rw [sweepChans, nextChan_ofNat]
    refine ⟨?_, hfirst.trans hrest fun d => ?_⟩
    · have hsame : ∀ i ∈ List.range n, (sweepChan clear (Fin.ofNat 1024 start) s).2.chan (Fin.ofNat 1024 (start + 1 + i)) =
          s.chan (Fin.ofNat 1024 (start + 1 + i)) := fun i hi => by
        refine (hfirst.1 _).2 fun h => ?_
        have hval : (start + 1 + i) % 1024 = start % 1024 := h.2
        have := List.mem_range.1 hi
        omega
      rw [hbytes, List.range_succ_eq_map, List.flatMap_cons, List.flatMap_map]
      refine congrArg₂ (· ++ ·) rfl (List.flatMap_congr fun i hi => ?_)
      rw [hsame i hi, Nat.add_assoc, Nat.add_comm 1 i]
    · exact read_succ clear n start 1024 d

/-- COUNT-SWEEP's operands. -/
theorem dirCountSweep_format (h : ops.length ≠ 4) : dirCountSweep ops s = dirRefused .format s := if_pos h

theorem dirCountSweep_range (hlen : ops.length = 4)
    (h : 1024 ≤ numAt ops 0 2 ∨ numAt ops 2 1 = 0 ∨ 16 < numAt ops 2 1 ∨ 2 ≤ numAt ops 3 1) : dirCountSweep ops s = dirRefused .range s := by
  unfold dirCountSweep
  rw [if_neg (not_not.2 hlen)]
  by_cases hchan : 1024 ≤ numAt ops 0 2
  · rw [chanOf_ge hchan]
  · by_cases hflag : 2 ≤ numAt ops 3 1
    · rw [Keys.flagOf_gt hflag]
      split
      · next hno => cases hno
      · rfl
    · split
      · exact if_pos (by omega)
      · rfl

theorem flagOf_eq {n : Nat} (h : n = if clear then 1 else 0) : flagOf n = some clear := by
  rw [h]
  cases clear <;> rfl

theorem dirCountSweep_done {c : Chan} (hlen : ops.length = 4) (hc : c.val = numAt ops 0 2) (h1 : 1 ≤ numAt ops 2 1) (h16 : numAt ops 2 1 ≤ 16)
    (hflag : numAt ops 3 1 = if clear then 1 else 0) : dirCountSweep ops s =
      dirDone ((sweepChans clear (numAt ops 2 1) c s).1 ++ beBytes 2 ((c.val + numAt ops 2 1) % 1024)) (sweepChans clear (numAt ops 2 1) c s).2 := by
  unfold dirCountSweep
  rw [if_neg (not_not.2 hlen), chanOf_val hc, flagOf_eq hflag]
  exact if_neg (by omega)

end sweep

/-! ### PORT-COUNTS (R163) -/

section places
variable {s t u : State} {clear : Bool} {ops : List Byte}

/-- From `s` to `t` the counters of the places `read` names are 0, and nothing else changed (R163). -/
def SweptPlaces (read : Nat → Prop) (s t : State) : Prop :=
  (∀ m : PortId, (read m.val → t.port m = { s.port m with counters := Vector.replicate 22 0 }) ∧ (¬ read m.val → t.port m = s.port m)) ∧
  (∀ k : LaneId, (read (k.val + 4) → t.lane k = { s.lane k with counters := Vector.replicate 34 0 }) ∧ (¬ read (k.val + 4) → t.lane k = s.lane k)) ∧
  (read 9 → t.agent = { s.agent with counters := Vector.replicate 9 0 }) ∧ (¬ read 9 → t.agent = s.agent) ∧
  t = { s with ports := t.ports, lanes := t.lanes, agent := t.agent }

theorem SweptPlaces.refl {read : Nat → Prop} (h : ∀ i, ¬ read i) (s : State) : SweptPlaces read s s :=
  ⟨fun _ => ⟨fun hr => absurd hr (h _), fun _ => rfl⟩, fun _ => ⟨fun hr => absurd hr (h _), fun _ => rfl⟩, fun hr => absurd hr (h _), fun _ => rfl, rfl⟩

/-- What is set to 0 twice is set to 0. -/
theorem swept_twice {α : Type} {x y z : α} {zero : α → α} (hzero : ∀ a, zero (zero a) = zero a) {p q r : Prop} (h1 : (p → y = zero x) ∧ (¬ p → y = x))
    (h2 : (q → z = zero y) ∧ (¬ q → z = y)) (hr : r ↔ p ∨ q) : (r → z = zero x) ∧ (¬ r → z = x) := by
  rw [hr]
  by_cases hp : p <;> by_cases hq : q
  · exact ⟨fun _ => by rw [h2.1 hq, h1.1 hp, hzero], fun hno => absurd (.inl hp) hno⟩
  · exact ⟨fun _ => by rw [h2.2 hq, h1.1 hp], fun hno => absurd (.inl hp) hno⟩
  · exact ⟨fun _ => by rw [h2.1 hq, h1.2 hp], fun hno => absurd (.inr hq) hno⟩
  · exact ⟨fun h => absurd h (not_or.2 ⟨hp, hq⟩), fun _ => by rw [h2.2 hq, h1.2 hp]⟩

theorem SweptPlaces.trans {r1 r2 read : Nat → Prop} (h1 : SweptPlaces r1 s u) (h2 : SweptPlaces r2 u t) (hread : ∀ i, read i ↔ r1 i ∨ r2 i) :
    SweptPlaces read s t := by
  obtain ⟨hp1, hl1, ha1, hb1, hf1⟩ := h1
  obtain ⟨hp2, hl2, ha2, hb2, hf2⟩ := h2
  obtain ⟨ha, hb⟩ := swept_twice (zero := fun a : Agent => { a with counters := Vector.replicate 9 0 }) (fun _ => rfl) ⟨ha1, hb1⟩ ⟨ha2, hb2⟩ (hread 9)
  refine ⟨fun m => ?_, fun k => ?_, ha, hb, by rw [hf2, hf1]⟩
  · exact swept_twice (zero := fun p : Port => { p with counters := Vector.replicate 22 0 }) (fun _ => rfl) (hp1 m) (hp2 m) (hread m.val)
  · exact swept_twice (zero := fun l : Lane => { l with counters := Vector.replicate 34 0 }) (fun _ => rfl) (hl1 k) (hl2 k) (hread (k.val + 4))

/-- A place is a port, a lane or the agent (R163). -/
theorem place_cases {p : Nat} (h : p < 10) : (∃ m : PortId, p = m.val) ∨ (∃ k : LaneId, p = k.val + 4) ∨ p = 9 := by
  by_cases h4 : p < 4
  · exact .inl ⟨⟨p, h4⟩, rfl⟩
  · by_cases h9 : p < 9
    · exact .inr (.inl ⟨⟨p - 4, by omega⟩, by show p = p - 4 + 4; omega⟩)
    · exact .inr (.inr (by omega))

theorem readPlace_port (clear : Bool) (m : PortId) (s : State) : readPlace clear m.val s =
    (portPlaceBytes m.val (s.port m), if clear then s.updPort m fun p => { p with counters := Vector.replicate 22 0 } else s) := by
  unfold readPlace
  rw [portIdOf_val rfl]

theorem readPlace_lane (clear : Bool) (k : LaneId) (s : State) : readPlace clear (k.val + 4) s =
    (lanePlaceBytes (k.val + 4) (s.lane k), if clear then s.updLane k fun l => { l with counters := Vector.replicate 34 0 } else s) := by
  unfold readPlace
  rw [portIdOf_ge (by omega), Nat.add_sub_cancel, laneIdOf_val rfl]

theorem readPlace_agent (clear : Bool) (s : State) : readPlace clear 9 s =
    (agentPlaceBytes s.agent, if clear then s.updAgent fun a => { a with counters := Vector.replicate 9 0 } else s) := by
  unfold readPlace
  rw [portIdOf_ge (by omega), laneIdOf_ge (by omega)]

/-- Reading without clear leaves the state. -/
theorem readPlace_false_state {p : Nat} (h : p < 10) (s : State) : (readPlace false p s).2 = s := by
  obtain ⟨m, rfl⟩ | ⟨k, rfl⟩ | rfl := place_cases h
  · rw [readPlace_port]; rfl
  · rw [readPlace_lane]; rfl
  · rw [readPlace_agent]; rfl

/-- The bytes of a place are those of its block, cleared or not. -/
theorem readPlace_bytes {p : Nat} (h : p < 10) (clear : Bool) (s : State) : (readPlace clear p s).1 = (readPlace false p s).1 := by
  obtain ⟨m, rfl⟩ | ⟨k, rfl⟩ | rfl := place_cases h
  · rw [readPlace_port, readPlace_port]
  · rw [readPlace_lane, readPlace_lane]
  · rw [readPlace_agent, readPlace_agent]

/-- A place that was not cleared reads as before. -/
theorem readPlace_of_swept {p : Nat} (h : p < 10) {read : Nat → Prop} (hs : SweptPlaces read s u) (hp : ¬ read p) :
    (readPlace false p u).1 = (readPlace false p s).1 := by
  obtain ⟨hports, hlanes, -, hagent, -⟩ := hs
  obtain ⟨m, rfl⟩ | ⟨k, rfl⟩ | rfl := place_cases h
  · rw [readPlace_port, readPlace_port, (hports m).2 hp]
  · rw [readPlace_lane, readPlace_lane, (hlanes k).2 hp]
  · rw [readPlace_agent, readPlace_agent, hagent hp]

theorem readPlace_swept {p : Nat} (h : p < 10) (clear : Bool) (s : State) : SweptPlaces (fun q => clear = true ∧ q = p) s (readPlace clear p s).2 := by
  cases clear with
  | false =>
    rw [readPlace_false_state h]
    exact .refl (fun _ hr => Bool.noConfusion hr.1) s
  | true =>
    obtain ⟨m, rfl⟩ | ⟨k, rfl⟩ | rfl := place_cases h
    · rw [readPlace_port]
      show SweptPlaces _ s (s.updPort m fun p => { p with counters := Vector.replicate 22 0 })
      refine ⟨fun n => ⟨fun hr => ?_, fun hr => ?_⟩, fun k => ⟨fun hr => absurd hr.2 (by omega), fun _ => rfl⟩, fun hr => absurd hr.2 (by omega), fun _ => rfl, rfl⟩
      · have hnm : n = m := Fin.ext hr.2
        subst hnm
        rw [State.updPort_port_eq]
      · rw [State.updPort_port, if_neg fun e => hr ⟨rfl, congrArg Fin.val e⟩]
    · rw [readPlace_lane]
      show SweptPlaces _ s (s.updLane k fun l => { l with counters := Vector.replicate 34 0 })
      refine ⟨fun n => ⟨fun hr => absurd hr.2 (by omega), fun _ => rfl⟩, fun j => ⟨fun hr => ?_, fun hr => ?_⟩, fun hr => absurd hr.2 (by omega), fun _ => rfl, rfl⟩
      · have hjk : j = k := Fin.ext (by have := hr.2; omega)
        subst hjk
        rw [State.updLane_lane_eq]
      · rw [State.updLane_lane, if_neg fun e => hr ⟨rfl, by rw [e]⟩]
    · rw [readPlace_agent]
      exact ⟨fun n => ⟨fun hr => absurd hr.2 (by omega), fun _ => rfl⟩, fun k => ⟨fun hr => absurd hr.2 (by omega), fun _ => rfl⟩, fun _ => rfl,
        fun hr => absurd ⟨rfl, rfl⟩ hr, rfl⟩

/-- The places of a reading from `start` on (R163). -/
theorem readPlaces_reads (clear : Bool) (n : Nat) : ∀ (start : Nat) (s : State), n ≤ 10 →
    (readPlaces clear n (start % 10) s).1 = (List.range n).flatMap (fun i => (readPlace false ((start + i) % 10) s).1) ∧
    SweptPlaces (fun p => clear = true ∧ ∃ i, i < n ∧ p = (start + i) % 10) s (readPlaces clear n (start % 10) s).2 := by
  induction n with
  | zero => exact fun start s _ => ⟨rfl, .refl (fun _ ⟨_, i, hi, _⟩ => absurd hi (Nat.not_lt_zero i)) s⟩
  | succ n ih =>
    intro start s hn
    have hfirst := readPlace_swept (p := start % 10) (Nat.mod_lt _ (by omega)) clear s
    obtain ⟨hbytes, hrest⟩ := ih (start + 1) (readPlace clear (start % 10) s).2 (by omega)
    rw [readPlaces, Nat.mod_add_mod]
    refine ⟨?_, hfirst.trans hrest fun p => read_succ clear n start 10 p⟩
    have hsame : ∀ i ∈ List.range n, (readPlace false ((start + 1 + i) % 10) (readPlace clear (start % 10) s).2).1 =
        (readPlace false ((start + 1 + i) % 10) s).1 := fun i hi => by
      have := List.mem_range.1 hi
      exact readPlace_of_swept (Nat.mod_lt _ (by omega)) hfirst fun h => by have := h.2; omega
    rw [hbytes, List.range_succ_eq_map, List.flatMap_cons, List.flatMap_map]
    refine congrArg₂ (· ++ ·) (readPlace_bytes (Nat.mod_lt _ (by omega)) clear s) (List.flatMap_congr fun i hi => ?_)
    rw [hsame i hi, Nat.add_assoc, Nat.add_comm 1 i]

theorem dirPortCounts_format (h : ops.length ≠ 3) : dirPortCounts ops s = dirRefused .format s := if_pos h

theorem dirPortCounts_range (hlen : ops.length = 3) (h : 9 < numAt ops 0 1 ∨ numAt ops 1 1 = 0 ∨ 10 < numAt ops 1 1 ∨ 2 ≤ numAt ops 2 1) :
    dirPortCounts ops s = dirRefused .range s := by
  unfold dirPortCounts
  rw [if_neg (not_not.2 hlen)]
  by_cases hflag : 2 ≤ numAt ops 2 1
  · rw [Keys.flagOf_gt hflag]
  · split
    · exact if_pos (by omega)
    · rfl

theorem dirPortCounts_done (hlen : ops.length = 3) (h9 : numAt ops 0 1 ≤ 9) (h1 : 1 ≤ numAt ops 1 1) (h10 : numAt ops 1 1 ≤ 10)
    (hflag : numAt ops 2 1 = if clear then 1 else 0) : dirPortCounts ops s =
      dirDone ((readPlaces clear (numAt ops 1 1) (numAt ops 0 1) s).1 ++ [BitVec.ofNat 8 ((numAt ops 0 1 + numAt ops 1 1) % 10)])
        (readPlaces clear (numAt ops 1 1) (numAt ops 0 1) s).2 := by
  unfold dirPortCounts
  rw [if_neg (not_not.2 hlen), flagOf_eq hflag]
  exact if_neg (by omega)

end places

/-- Settles O46: counts and their order, then the two directives as one reading from place to place. -/
theorem counterDirectives : Obligations.CounterDirectives := by
  refine ⟨⟨addCounter_toNat, Channel.ctr_count, Port.ctr_count, Lane.ctr_count, Agent.ctr_count, fun ch => toList_eq_map ch.counters,
      fun p => toList_eq_map p.counters, fun l => toList_eq_map l.counters, fun a => toList_eq_map a.counters⟩,
    fun ops s hready => ⟨fun h => ?_, fun hlen h => ?_, fun start n clear hlen hstart hlt hn h1 h16 hflag => ?_⟩,
    fun ops s hready => ⟨fun h => ?_, fun hlen h => ?_, fun start n clear read hlen hstart hle hn h1 h10 hflag hread => ?_⟩⟩
  · exact directive_ends rfl hready (dirCountSweep_format h)
  · exact directive_ends rfl hready (dirCountSweep_range hlen h)
  · subst hstart hn
    have hval : (Fin.ofNat 1024 (numAt ops 0 2)).val = numAt ops 0 2 := Nat.mod_eq_of_lt hlt
    obtain ⟨hbytes, hchans, hframe⟩ := sweepChans_reads clear (numAt ops 2 1) (numAt ops 0 2) (taken s) (by omega)
    refine ⟨_, directive_ends rfl hready ((dirCountSweep_done hlen hval h1 h16 hflag).trans ?_), fun c => ?_, hframe⟩
    · rw [hbytes, hval]
      rfl
    · split
      · next h => exact (hchans c).1 h
      · next h => exact (hchans c).2 h
  · exact directive_ends rfl hready (dirPortCounts_format h)
  · exact directive_ends rfl hready (dirPortCounts_range hlen h)
  · subst hstart hn
    obtain ⟨hbytes, hports, hlanes, hclear, hkept, hframe⟩ := readPlaces_reads clear (numAt ops 1 1) (numAt ops 0 1) (taken s) h10
    rw [Nat.mod_eq_of_lt (by omega : numAt ops 0 1 < 10)] at hbytes hports hlanes hclear hkept hframe
    refine ⟨_, directive_ends rfl hready ((dirPortCounts_done hlen hle h1 h10 hflag).trans ?_), fun m => ?_, fun k => ?_, fun h => ?_, fun h => ?_, hframe⟩
    · rw [hbytes]
      rfl
    · rw [hread]
      exact hports m
    · rw [hread]
      exact hlanes k
    · exact hclear ((hread 9).1 h)
    · exact hkept fun hr => h ((hread 9).2 hr)

end Sys2Proof.CounterDirections
end

section
/-! ID-BURN and its completion (R133, R135, R157, R171, R172, R174). -/

namespace Sys2Proof.IdBurning
open Sys2Proof.Machine Sys2Proof.Safety Sys2Proof.ChannelSettings

/-! ### The directive (R174) -/

section directive
variable {ops : List Byte} {s : State} {w : Fin 32} {b : Fin 16}

theorem wordOf_val {n : Nat} (h : w.val = n) : wordOf n = some w := by
  subst h
  simp [wordOf]

theorem wordOf_ge {n : Nat} (h : 32 ≤ n) : wordOf n = none := by
  simp [wordOf]
  omega

theorem bitOf_val {n : Nat} (h : b.val = n) (hw : w = 4 → b.val < 4) : bitOf w n = some b := by
  subst h
  unfold bitOf
  rw [if_neg fun hno => absurd (hw hno.1) (by omega), dif_pos b.isLt]

theorem bitOf_none {n : Nat} (h : 16 ≤ n ∨ w = 4 ∧ 4 ≤ n) : bitOf w n = none := by
  unfold bitOf
  split
  · rfl
  · next hno => rw [dif_neg (by have := h.resolve_right hno; omega)]

theorem dirIdBurn_format (h : ops.length ≠ 2) : dirIdBurn ops s = dirRefused .format s := if_pos h

theorem dirIdBurn_range (hlen : ops.length = 2) (h : 32 ≤ numAt ops 0 1 ∨ 16 ≤ numAt ops 1 1 ∨ numAt ops 0 1 = 4 ∧ 4 ≤ numAt ops 1 1) :
    dirIdBurn ops s = dirRefused .range s := by
  unfold dirIdBurn
  rw [if_neg (not_not.2 hlen)]
  by_cases hge : 32 ≤ numAt ops 0 1
  · rw [wordOf_ge hge]
  · rw [wordOf_val (w := ⟨numAt ops 0 1, by omega⟩) rfl]
    dsimp only
    rw [bitOf_none ((h.resolve_left hge).imp id fun ⟨h4, hbit⟩ => ⟨Fin.ext h4, hbit⟩)]

theorem dirIdBurn_named (hlen : ops.length = 2) (hw : w.val = numAt ops 0 1) (hb : b.val = numAt ops 1 1) (h4 : w = 4 → b.val < 4) : dirIdBurn ops s =
    if lockBit s then dirRefused .locked s
    else if s.store[w].getLsbD b.val then dirDone (idWordBytes s.store w) s
    else .begun { s with burn := some { word := w, bit := b, timer := startTimer s 100 } } := by
  unfold dirIdBurn
  rw [if_neg (not_not.2 hlen), wordOf_val hw]
  dsimp only
  rw [bitOf_val hb h4]

end directive

/-! ### The burn of a bit (R174) -/

section bit

theorem burnBit_getLsbD (st : Store) (w v : Fin 32) (b i : Fin 16) :
    (burnBit st v i)[w].getLsbD b.val = (st[w].getLsbD b.val || decide (w = v ∧ b = i)) := by
  by_cases hw : w = v
  · subst hw
    have hbit : (BitVec.ofNat 16 (2 ^ i.val)).getLsbD b.val = decide (b = i) := by
      rw [BitVec.getLsbD_ofNat, Nat.testBit_two_pow]
      have hb := b.isLt
      simp [hb, Fin.ext_iff, eq_comm]
    simp only [burnBit, Fin.getElem_fin, Vector.getElem_set_self, BitVec.getLsbD_or, hbit, true_and]
  · have hne : v.val ≠ w.val := fun e => hw (Fin.ext e.symm)
    simp only [burnBit, Fin.getElem_fin, hw, false_and, decide_false, Bool.or_false]
    rw [Vector.getElem_set_ne _ _ hne]

/-- The LOCK flag stands once its bit is burned. -/
theorem lockBit_burned {s : State} : lockBit { s with store := burnBit s.store 4 0, burn := none } = true := by
  have h := burnBit_getLsbD s.store 4 4 0 0
  simpa [lockBit] using h

end bit

/-! ### The effects of LOCK (R133, R135, R157, R171, R172, R174) -/

section lock
variable {s : State}

/-- The latched identity with the controller's state of the old role gone (R174). -/
def roleCleared (s : State) : State := (latchIdentity s).updProt fun p =>
  { p with selection := none, steering := none, echo := none, candidate := none, adoptCount := 0, wtrTimer := none }

/-- The state in which the arbiter of a part that became a RACK part runs (R174). -/
def roleLeft (s : State) : State := moveBridging (bridged s) none (roleCleared s)

theorem bridged_eq (s : State) : bridged s = if s.role = .rack then s.prot.selection else s.prot.echo := by
  unfold bridged
  cases s.role <;> rfl

theorem roleLeft_frame (s : State) : roleLeft s = { roleCleared s with
    lanes := (roleLeft s).lanes, agent := { s.agent with devices := s.agent.devices ||| kindBit .protect } } :=
  (moveBridging_frame (bridged s) none (roleCleared s)).1

theorem roleMoved_roleLeft (s : State) : RoleMoved s (roleLeft s) := by
  refine ⟨?_, (moveBridging_frame (bridged s) none (roleCleared s)).2, ?_, ?_, ?_⟩
  · rw [← bridged_eq]
    by_cases h : bridged s = none
    · rw [roleLeft, h]
      exact Switching.bridgingMoved_refl none (roleCleared s)
    · exact moveBridging_moved h (roleCleared s)
  · rw [roleLeft_frame]; rfl
  · rw [roleLeft_frame]
  · rw [roleLeft_frame]; rfl

/-- The state after the role was latched and the controller followed (R174). -/
def roleLatched (s : State) : State := if (latchIdentity s).role = s.role then latchIdentity s else runArbiter (roleLeft s)

/-- What the new role leaves of lanes, controller and notices (R133, R135). -/
def RoleFollowed (s t : State) : Prop :=
  (t.role = s.role → t.prot = s.prot ∧ t.lanes = s.lanes ∧ t.agent.devices = s.agent.devices) ∧
  (t.role ≠ s.role → t.agent.devices = s.agent.devices ||| kindBit .protect ∧
    ∃ u v : State, RoleMoved s u ∧ u.role = t.role ∧ u.ownAddr = t.ownAddr ∧ (t.role = .rack → ArbiterRan u v) ∧ (t.role = .campus → v = u) ∧
      t.prot = v.prot ∧ t.lanes = v.lanes)

/-- PROTECT is set already when the arbiter of the new RACK part runs. -/
theorem runArbiter_roleLeft_devices (s : State) : (runArbiter (roleLeft s)).agent.devices = s.agent.devices ||| kindBit .protect := by
  have hagent : (roleLeft s).agent.devices = s.agent.devices ||| kindBit .protect := by rw [roleLeft_frame]
  cases hr : (roleLeft s).role with
  | campus => rw [Switching.runArbiter_campus hr, hagent]
  | rack =>
    obtain ⟨-, -, -, -, -, -, -, -, -, hran, -⟩ := Switching.arbiterRan hr
    rw [hran]
    split
    · exact hagent
    · show (roleLeft s).agent.devices ||| kindBit .protect = _
      rw [hagent, BitVec.or_assoc, BitVec.or_self]

theorem roleLatched_frame (s : State) : ∃ lanes prot devices, roleLatched s = { s with
    role := storeRole s, ownAddr := storeAddr s, lanes := lanes, prot := prot, agent := { s.agent with devices := devices } } := by
  unfold roleLatched
  split
  · exact ⟨s.lanes, s.prot, s.agent.devices, rfl⟩
  · obtain ⟨-, -, ⟨d, hagent⟩, hframe⟩ := (runArbiter_switched (roleLeft s)).1
    refine ⟨(runArbiter (roleLeft s)).lanes, (runArbiter (roleLeft s)).prot, s.agent.devices ||| kindBit .protect ||| d, ?_⟩
    rw [hframe, hagent, roleLeft_frame]
    rfl

theorem roleFollowed_roleLatched (s : State) : RoleFollowed s (roleLatched s) := by
  unfold roleLatched
  split
  · next h => exact ⟨fun _ => ⟨rfl, rfl, rfl⟩, fun hne => absurd h hne⟩
  · next h =>
    have hrole : (runArbiter (roleLeft s)).role = (roleLeft s).role := (runArbiter_switched (roleLeft s)).1.role
    have haddr : (runArbiter (roleLeft s)).ownAddr = (roleLeft s).ownAddr := by rw [(runArbiter_switched (roleLeft s)).1.2.2.2]
    have hleft : (roleLeft s).role = (latchIdentity s).role := by rw [roleLeft_frame]; rfl
    refine ⟨fun hsame => absurd (hleft.symm.trans (hrole.symm.trans hsame)) h, fun _ => ⟨runArbiter_roleLeft_devices s, roleLeft s, runArbiter (roleLeft s),
      roleMoved_roleLeft s, hrole.symm, haddr.symm, fun hr => ?_, fun hc => ?_, rfl, rfl⟩⟩
    · exact Switching.arbiterRan (hrole.symm.trans hr)
    · exact Switching.runArbiter_campus (hrole.symm.trans hc)

theorem lockBurned_eq (s : State) : lockBurned s = refuseClear { loadIfLocked ((roleLatched s).updChan 0 emptySlots) with part := .running } := rfl

/-- Channel 0 with every slot EMPTY (R174). -/
theorem emptySlots_cleared (ch : Channel) : (∀ y, OutCleared ((emptySlots ch).outSlot y) ∧ ((emptySlots ch).outSlot y).load = (ch.outSlot y).load ∧
      ((emptySlots ch).outSlot y).inFlight = (ch.outSlot y).inFlight ∧ InCleared ((emptySlots ch).inSlot y) ∧
      ((emptySlots ch).inSlot y).load = (ch.inSlot y).load ∧ ((emptySlots ch).inSlot y).inFlight = (ch.inSlot y).inFlight) ∧
    emptySlots ch = { ch with
      outA := (emptySlots ch).outA, outB := (emptySlots ch).outB, inA := (emptySlots ch).inA, inB := (emptySlots ch).inB } := by
  refine ⟨fun y => ?_, rfl⟩
  cases y <;> exact ⟨outCleared_emptyOut _, rfl, rfl, inCleared_emptyIn _, rfl, rfl⟩

theorem lockBurned_chan_ne {c : Chan} (hc : c ≠ 0) (s : State) : (lockBurned s).chan c = (roleLatched s).chan c := by
  have h : (lockBurned s).chan c = (loadIfLocked ((roleLatched s).updChan 0 emptySlots)).chan c := rfl
  rw [h, Startup.loadIfLocked_chan_ne hc, State.updChan_chan, if_neg hc]

theorem lockBurned_chan_zero (s : State) : (lockBurned s).chan 0 = (loadIfLocked ((roleLatched s).updChan 0 emptySlots)).chan 0 := rfl

theorem lockBurned_frame (s : State) : lockBurned s = { roleLatched s with
    part := .running, channels := (lockBurned s).channels
    agent := { (roleLatched s).agent with
      queue := (roleLatched s).agent.queue.filter (fun q => !q.clear)
      counters := ((roleLatched s).agent.count .clearRefused ((roleLatched s).agent.queue.filter (·.clear)).length).counters } } := by
  rw [lockBurned_eq, Startup.loadIfLocked_frame]
  rfl

/-- A burn of LOCK, from the state in which its bit reads 1 (R174). -/
theorem lockBurned_fields (s : State) (hlock : lockBit s = true) :
    (lockBurned s).part = .running ∧ (lockBurned s).role = storeRole s ∧ (lockBurned s).ownAddr = storeAddr s ∧ (lockBurned s).store = s.store ∧
    (∀ c, c ≠ 0 → (lockBurned s).chan c = s.chan c) ∧
    (s.pins.zeroizeHigh = true → Loaded0 (lockBurned s) (emptySlots (s.chan 0)) ((lockBurned s).chan 0)) ∧
    (s.pins.zeroizeHigh = false → (lockBurned s).chan 0 = emptySlots (s.chan 0)) ∧ RoleFollowed s (lockBurned s) ∧
    (lockBurned s).agent.queue = s.agent.queue.filter (fun q => !q.clear) ∧
    (∀ ctr, (lockBurned s).agent.ctr ctr =
      if ctr = .clearRefused then addCounter (s.agent.ctr ctr) (s.agent.queue.filter (·.clear)).length else s.agent.ctr ctr) ∧
    (lockBurned s).agent = { s.agent with
      queue := (lockBurned s).agent.queue, counters := (lockBurned s).agent.counters, devices := (lockBurned s).agent.devices } ∧
    lockBurned s = { s with
      part := (lockBurned s).part, role := (lockBurned s).role, ownAddr := (lockBurned s).ownAddr, channels := (lockBurned s).channels
      lanes := (lockBurned s).lanes, prot := (lockBurned s).prot, agent := (lockBurned s).agent } := by
  have hframe := lockBurned_frame s
  have hfollowed := roleFollowed_roleLatched s
  obtain ⟨lanes, prot, devices, hlatched⟩ := roleLatched_frame s
  have hchan : ∀ c, (roleLatched s).chan c = s.chan c := fun c => by rw [hlatched]; rfl
  have hzero : ((roleLatched s).updChan 0 emptySlots).chan 0 = emptySlots (s.chan 0) := by rw [State.updChan_chan_eq, hchan]
  refine ⟨by rw [hframe], by rw [hframe, hlatched], by rw [hframe, hlatched], by rw [hframe, hlatched], fun c hc => ?_, fun hpin => ?_, fun hpin => ?_, ?_,
    by rw [hframe, hlatched], fun ctr => ?_, ?_, ?_⟩
  · rw [lockBurned_chan_ne hc, hchan]
  · have hload := Startup.loadIfLocked_chan_zero (s := (roleLatched s).updChan 0 emptySlots) (by rw [hlatched]; exact hlock) (by rw [hlatched]; exact hpin)
    rw [hzero, hlatched] at hload
    rw [lockBurned_chan_zero, hframe, hlatched]
    exact hload
  · rw [lockBurned_chan_zero, Startup.loadIfLocked_unlocked (.inr (by rw [hlatched]; exact hpin)), hzero]
  · rw [hframe]
    exact hfollowed
  · rw [hframe, hlatched]
    exact CounterDirections.Agent.ctr_count { s.agent with devices := devices } .clearRefused ctr (s.agent.queue.filter (·.clear)).length
  · rw [hframe, hlatched]
  · rw [hframe, hlatched]

end lock

/-- The state that a completed burn leaves (R174). -/
def burnedState (x : Burn) (s : State) : State :=
  if x.word = 4 ∧ x.bit = 0 then lockBurned (Kept.bitBurned x s) else Kept.bitBurned x s

theorem exec_idBurnCompletion {x : Burn} {s : State} (h : s.burn = some x) (hdue : x.timer.len ≤ (s.time - x.timer.start).toNat) :
    exec .idBurnCompletion s = .next (ended codeIdBurn .done (idWordBytes (burnedState x s).store x.word) (burnedState x s)) := by
  show execIdBurnCompletion s = _
  unfold execIdBurnCompletion
  rw [h]
  exact congrArg Host.Outcome.next (if_pos (timerDue_of_le hdue))

/-- Settles O51: the directive, then the bit that is burned and the effects of LOCK. -/
theorem idBurn : Obligations.IdBurn := by
  refine ⟨fun ops s hready => ⟨fun h => ?_, fun hlen h => ?_, fun w b hlen hw hb h4 => ⟨fun h => ?_, fun h hbit => ?_, fun h hbit => ?_⟩⟩, fun s x hx hdue => ?_⟩
  · exact directive_ends rfl hready (dirIdBurn_format h)
  · exact directive_ends rfl hready (dirIdBurn_range hlen h)
  · exact directive_ends rfl hready ((dirIdBurn_named hlen hw hb h4).trans (if_pos h))
  · refine directive_ends rfl hready ((dirIdBurn_named hlen hw hb h4).trans ((if_neg ?_).trans (if_pos hbit)))
    rw [lockBit_taken, h]
    decide
  · refine directive_begins rfl hready ((dirIdBurn_named hlen hw hb h4).trans ((if_neg ?_).trans (if_neg ?_)))
    · rw [lockBit_taken, h]
      decide
    · rw [taken_store, hbit]
      decide
  · refine ⟨burnedState x s, exec_idBurnCompletion hx hdue, ?_⟩
    by_cases hlock : x.word = 4 ∧ x.bit = 0
    · obtain ⟨hw, hb⟩ := hlock
      have hbit : lockBit (Kept.bitBurned x s) = true := by
        unfold Kept.bitBurned
        rw [hw, hb]
        exact lockBit_burned
      obtain ⟨hpart, hrole, haddr, hstore, hchans, hloaded, hempty, hfollowed, hqueue, hctr, hagent, hframe⟩ := lockBurned_fields (Kept.bitBurned x s) hbit
      rw [burnedState, if_pos ⟨hw, hb⟩]
      obtain ⟨hcleared, hslots⟩ := emptySlots_cleared (s.chan 0)
      refine ⟨by rw [hframe]; rfl, fun w b => ?_, fun hno => absurd ⟨hw, hb⟩ hno, fun _ _ => ⟨hpart, ?_, ?_, hchans, hqueue, ?_,
        ⟨emptySlots (s.chan 0), hcleared, hslots, hloaded, hempty⟩, hfollowed.1, fun hne => ?_, hagent, fun ctr hc => ?_, ?_⟩⟩
      · rw [hstore]
        exact burnBit_getLsbD s.store w x.word b x.bit
      · rw [hrole, hstore]; rfl
      · rw [haddr]
        unfold storeAddr
        rw [hstore]
      · rw [hctr, if_pos rfl]; rfl
      · obtain ⟨hdev, u, v, hmoved, hrest⟩ := hfollowed.2 hne
        refine ⟨hdev, u, v, ?_, hrest⟩
        rw [hstore]
        exact hmoved
      · rw [hctr, if_neg hc]; rfl
      · rw [hstore]
        exact hframe
    · rw [burnedState, if_neg hlock]
      exact ⟨rfl, fun w b => burnBit_getLsbD s.store w x.word b x.bit, fun _ => rfl, fun hw hb => absurd ⟨hw, hb⟩ hlock⟩

end Sys2Proof.IdBurning
end

section
/-! The lane transmitter: what it takes next, and what the end of a transmission brings (R76, R78, R109, R111, R122, R130, R145, R146, R169). -/

namespace Sys2Proof.LaneTransmission
open Sys2Proof.Machine Sys2Proof.Safety Sys2Proof.Arrivals

section
variable {k : LaneId} {s : State} {n : PortId}

/-! ### The buffer a lane serves (R109, R122, R130) -/

theorem bridged_rack (h : s.role = .rack) : bridged s = s.prot.selection := by rw [bridged, h]

theorem bridged_campus (h : s.role = .campus) : bridged s = s.prot.echo := by rw [bridged, h]

theorem servedPort_standby (s : State) : servedPort s 4 = bridged s := rfl

theorem portOfLane_working (h : k.val = n.val) : portOfLane k = some n := by
  have hlt : k.val < 4 := by omega
  rw [portOfLane, dif_pos hlt]
  exact congrArg some (Fin.ext h)

theorem servedPort_working (h : k.val = n.val) : servedPort s k = if bridged s = some n then none else some n := by
  rw [servedPort, portOfLane_working h]

/-! ### How a transmission begins (R122) -/

/-- The lane unit once the frame began: it stands in the transmitter and is counted. -/
def begunLane (bytes : Frame) (source : TxSource) (l : Lane) : Lane :=
  ({ l with tx := some { bytes, source } }.count .framesSent).count .octetsSent bytes.length

/-- The lane unit once a frame of the control queue began: a beacon is counted as one too. -/
def begunControl (f : CtlFrame) (l : Lane) : Lane :=
  if f.kind = .beacon then (begunLane f.bytes (.control f.kind) l).count .beaconsSent else begunLane f.bytes (.control f.kind) l

theorem updLane_begunLane (bytes : Frame) (source : TxSource) (s : State) :
    ((s.updLane k fun l => { l with tx := some { bytes, source } }).countLane k .framesSent).countLane k .octetsSent bytes.length =
      s.updLane k (begunLane bytes source) := by
  rw [State.countLane, State.countLane, State.updLane_updLane, State.updLane_updLane]; rfl

theorem beginTransmit_control (f : CtlFrame) (s : State) : beginTransmit k f.bytes (.control f.kind) s = s.updLane k (begunControl f) := by
  cases hkind : f.kind with
  | beacon =>
    simp only [beginTransmit, updLane_begunLane]
    refine (State.updLane_updLane ..).trans (State.updLane_congr s ?_)
    rw [begunControl, if_pos hkind, hkind]
  | _ =>
    simp only [beginTransmit, updLane_begunLane]
    exact State.updLane_congr s (by rw [begunControl, if_neg (by rw [hkind]; simp), hkind])

theorem beginTransmit_buffer (bytes : Frame) (p : Bool) (s : State) :
    beginTransmit k bytes (.buffer n p) s = s.updLane k fun l => (begunLane bytes (.buffer n p) l).count .bufferFramesSent := by
  simp only [beginTransmit, updLane_begunLane]
  exact State.updLane_updLane ..

theorem beginTransmit_returned (bytes : Frame) (s : State) : beginTransmit k bytes .returned s = s.updLane k (begunLane bytes .returned) := by
  simp only [beginTransmit, updLane_begunLane]

/-! ### What an idle transmitter takes (R122, R145) -/

theorem exec_laneTransmitStart (hb : blocked s = false) (htx : (s.lane k).tx = none) : exec (.laneTransmitStart k) s = .next (transmitNext k s) := by
  show Host.Outcome.next (if blocked s || (s.lane k).tx.isSome then s else transmitNext k s) = _
  rw [if_neg (by simp [hb, htx])]

theorem transmitNext_returned {f : Frame} {rest : List Frame} (hline : (s.lane k).loopMode = .line) (hq : (s.lane k).returnQueue = f :: rest) :
    transmitNext k s = s.updLane k fun l =>
      { (l.count .framesSent).count .octetsSent f.length with returnQueue := rest, tx := some { bytes := f, source := .returned } } := by
  rw [transmitNext, if_pos hline, takeReturned, hq]
  refine (beginTransmit_returned ..).trans ((State.updLane_updLane ..).trans rfl)

theorem transmitNext_returned_empty (hline : (s.lane k).loopMode = .line) (hq : (s.lane k).returnQueue = []) : transmitNext k s = s := by
  rw [transmitNext, if_pos hline, takeReturned, hq]

theorem transmitNext_control {f : CtlFrame} {rest : List CtlFrame} (hline : (s.lane k).loopMode ≠ .line)
    (hq : takeControl (s.lane k).control = some (f, rest)) :
    transmitNext k s = s.updLane k fun l => begunControl f { l with control := rest } := by
  rw [transmitNext, if_neg hline, hq]
  exact (beginTransmit_control ..).trans (State.updLane_updLane ..)

theorem transmitNext_buffer (hline : (s.lane k).loopMode ≠ .line) (hq : (s.lane k).control = []) : transmitNext k s = takeBuffer k s := by
  rw [transmitNext, if_neg hline, hq]
  rfl

theorem takeBuffer_head {f : BufFrame} {rest : List BufFrame} (hn : servedPort s k = some n) (hq : (s.port n).buffer = f :: rest) :
    takeBuffer k s = (s.updPort n (removeHead rest)).updLane k fun l =>
      (begunLane f.bytes (.buffer n f.isProtected) l).count .bufferFramesSent := by
  simp only [takeBuffer, hn, hq]
  exact beginTransmit_buffer ..

theorem takeBuffer_empty (h : ∀ n, servedPort s k = some n → (s.port n).buffer = []) : takeBuffer k s = s := by
  unfold takeBuffer
  cases hn : servedPort s k with
  | none => rfl
  | some n => simp only [h n hn]

/-! ### The judgement of a buffer against XON (R111) -/

theorem removeHead_ends {rest : List BufFrame} {p : Port} (hx : totalBytes (rest.map (·.bytes)) ≤ p.xon) (he : p.pauseEnable = true)
    (hf : p.inForce = true) : removeHead rest p = endPause { p with buffer := rest } := if_pos ⟨he, hf, hx⟩

theorem removeHead_stays {rest : List BufFrame} {p : Port}
    (h : p.xon < totalBytes (rest.map (·.bytes)) ∨ p.pauseEnable = false ∨ p.inForce = false) : removeHead rest p = { p with buffer := rest } := by
  refine if_neg ?_
  rintro ⟨he, hf, hx⟩
  have hx' : totalBytes (rest.map (·.bytes)) ≤ p.xon := hx
  rcases h with h | h | h
  · omega
  · exact absurd (show p.pauseEnable = true from he) (by rw [h]; simp)
  · exact absurd (show p.inForce = true from hf) (by rw [h]; simp)

theorem endPause_eq (p : Port) : (endPause p).inForce = false ∧ (endPause p).refresh = none ∧
    (endPause p).pendingPause = (if p.announced then .off else .none) := by
  unfold endPause
  split
  · exact ⟨rfl, rfl, rfl⟩
  · exact ⟨rfl, rfl, rfl⟩

theorem removeHead_kept (rest : List BufFrame) (p : Port) : (removeHead rest p).buffer = rest ∧ (removeHead rest p).announced = p.announced ∧
    (removeHead rest p).counters = p.counters ∧ (removeHead rest p).queue = p.queue := by
  unfold removeHead judgeRemoval endPause
  split
  · split <;> exact ⟨rfl, rfl, rfl, rfl⟩
  · exact ⟨rfl, rfl, rfl, rfl⟩

/-! ### The lane unit of a frame that began -/

theorem begunControl_tx (f : CtlFrame) (l : Lane) : (begunControl f l).tx = some { bytes := f.bytes, source := .control f.kind } := by
  unfold begunControl; split <;> rfl

theorem begunControl_eq (f : CtlFrame) (l : Lane) :
    begunControl f l = { l with tx := (begunControl f l).tx, counters := (begunControl f l).counters } := by
  unfold begunControl; split <;> rfl

theorem begunLane_ctr (bytes : Frame) (source : TxSource) (l : Lane) (c : LaneCtr) : (begunLane bytes source l).ctr c =
    if c = .octetsSent then addCounter (l.ctr c) bytes.length else if c = .framesSent then addCounter (l.ctr c) 1 else l.ctr c := by
  rw [begunLane, Lane.ctr_count, Lane.ctr_count]
  split
  · next h => subst h; rfl
  · rfl

theorem begunControl_ctr (f : CtlFrame) (l : Lane) : (begunControl f l).ctr .framesSent = addCounter (l.ctr .framesSent) 1 ∧
    (begunControl f l).ctr .octetsSent = addCounter (l.ctr .octetsSent) f.bytes.length ∧
    (begunControl f l).ctr .beaconsSent = addCounter (l.ctr .beaconsSent) (if f.kind = .beacon then 1 else 0) ∧
    ∀ c, c ≠ .framesSent → c ≠ .octetsSent → c ≠ .beaconsSent → (begunControl f l).ctr c = l.ctr c := by
  unfold begunControl
  split <;> simp +contextual [Lane.ctr_count, begunLane_ctr, BeaconStages.addCounter_zero]

/-! ### The end of a transmission (R76, R146, R169) -/

theorem exec_laneTransmitEnd {x : LaneTx} (htx : (s.lane k).tx = some x) :
    exec (.laneTransmitEnd k) s = .next (afterTransmit k x (s.updLane k fun l => { l with tx := none })) := by
  show Host.Outcome.next (endTransmit k s) = _
  unfold endTransmit
  rw [htx]

theorem afterTransmit_nothing {x : LaneTx} (hreply : x.source = .control (.reply true) → s.agent.restart = none)
    (hloop : (∃ n, x.source = .buffer n true) → (s.lane k).loopMode ≠ .cipher) : afterTransmit k x s = s := by
  unfold afterTransmit
  split
  · next h => rw [hreply h]; rfl
  · next h => exact if_neg (hloop ⟨_, h⟩)
  · rfl

theorem afterTransmit_restart {x : LaneTx} {r : Timer} (hx : x.source = .control (.reply true)) (hr : s.agent.restart = some r) :
    afterTransmit k x s = coldReset s := by
  rw [afterTransmit, hx]
  exact if_pos (by rw [hr]; rfl)

theorem afterTransmit_fed {x : LaneTx} {own : Bool} (hx : x.source = .buffer n true) (hloop : (s.lane k).loopMode = .cipher)
    (hmal : malformed x.bytes = false) (hchan : 2 ≤ (headerChan (headerOf x.bytes)).val)
    (hown : own = decide (headerOrigin (headerOf x.bytes) = decide (s.role = .campus))) :
    afterTransmit k x s = settle (steerAndSelect k x.bytes own s) := by
  have hroute : routeEnvelope k x.bytes true s = steerAndSelect k x.bytes own s := by
    rw [routeEnvelope_traffic hchan hown]
    cases own <;> rfl
  rw [afterTransmit, hx]
  refine (if_pos hloop).trans (congrArg settle ?_)
  rw [if_neg (by rw [hmal]; simp), hroute]

end

/-- Settles O28: by what the transmitter takes, and by the source of the frame whose transmission ends. -/
theorem laneTransmits : Obligations.LaneTransmits := by
  unfold Obligations.LaneTransmits
  refine ⟨fun s => ⟨bridged_rack, bridged_campus, servedPort_standby s, fun k n hkn => ?_⟩, ?_, ?_, ?_, ?_, ?_, ?_, ?_⟩
  · rw [servedPort_working hkn]
    exact ⟨fun h => if_neg h, fun h => if_pos h⟩
  · intro k s pre post f hb htx hline hq hpick
    have htake : takeControl (s.lane k).control = some (f, pre ++ post) := by rw [hq, takeControl_eq hpick]
    refine ⟨_, (exec_laneTransmitStart hb htx).trans (congrArg _ (transmitNext_control hline htake)), ?_⟩
    rw [State.updLane_lane_eq]
    obtain ⟨hframes, hoctets, hbeacons, hothers⟩ := begunControl_ctr f { s.lane k with control := pre ++ post }
    refine ⟨begunControl_tx .., ?_, hframes, hoctets, hbeacons, hothers, ?_, fun j hj => ?_, rfl⟩
    · rw [begunControl_eq]
    · exact begunControl_eq ..
    · rw [State.updLane_lane, if_neg hj]
  · intro k s n f rest hb htx hline hctl hn hq
    refine ⟨_, (exec_laneTransmitStart hb htx).trans
      (congrArg _ ((transmitNext_buffer hline hctl).trans (takeBuffer_head hn hq))), ?_⟩
    rw [State.updLane_lane_eq, State.updLane_port, State.updPort_port_eq, State.updPort_lane]
    obtain ⟨hbuffer, hann, hctr, hqueue⟩ := removeHead_kept rest (s.port n)
    refine ⟨rfl, rfl, rfl, hbuffer, ?_, ?_, hann, hctr, hqueue, fun j hj => ?_, fun m hm => ?_, rfl⟩
    · rintro ⟨hx, he, hf⟩
      rw [removeHead_ends hx he hf]
      exact endPause_eq ..
    · exact removeHead_stays
    · rw [State.updLane_lane, if_neg hj, State.updPort_lane]
    · rw [State.updLane_port, State.updPort_port, if_neg hm]
  · intro k s f rest hb htx hline hq
    rw [exec_laneTransmitStart hb htx, transmitNext_returned hline hq]
  · intro k s hb htx h
    rw [exec_laneTransmitStart hb htx]
    rcases h with ⟨hline, hq⟩ | ⟨hline, hctl, hbuf⟩
    · rw [transmitNext_returned_empty hline hq]
    · rw [transmitNext_buffer hline hctl, takeBuffer_empty hbuf]
  · intro k s x htx hreply hloop
    have hloop' : (∃ n, x.source = .buffer n true) → ((s.updLane k fun l => { l with tx := none }).lane k).loopMode ≠ .cipher := by
      rw [State.updLane_lane_eq]; exact hloop
    exact (exec_laneTransmitEnd htx).trans (congrArg _ (afterTransmit_nothing hreply hloop'))
  · intro k s x r htx hx hr
    exact ⟨_, (exec_laneTransmitEnd htx).trans (congrArg _ (afterTransmit_restart hx hr)), coldReset_isCold s.pins _ rfl⟩
  · intro k s x n own htx hx hloop hmal hchan hown
    have hloop' : ((s.updLane k fun l => { l with tx := none }).lane k).loopMode = .cipher := by rw [State.updLane_lane_eq]; exact hloop
    have hend : exec (.laneTransmitEnd k) s = .next (settle (steerAndSelect k x.bytes own (s.updLane k fun l => { l with tx := none }))) :=
      (exec_laneTransmitEnd htx).trans (congrArg _ (afterTransmit_fed hx hloop' hmal hchan hown))
    have hport : boundPort (s.updLane k fun l => { l with tx := none }) k = boundPort s k := rfl
    refine ⟨fun m hm => ?_, fun hm => ?_⟩
    · rw [hend, steerAndSelect_bound (hport.trans hm)]
    · rw [hend, steerAndSelect_unselected (hport.trans hm)]

end Sys2Proof.LaneTransmission
end

section
/-! Where the data of the read directives, entry records, replies, notices and pause frames hold each field (12.3 to 12.6). A string is told as a list of
fields, each a width and a number; a field's place is then found by counting widths. -/

namespace Sys2Proof.Layouts
open Sys2Proof.Machine Sys2Proof.Safety Sys2Proof.IdentityStore Sys2Proof.Outcomes Sys2Proof.LoopDirections Sys2Proof.CounterDirections

/-! ### Strings as lists of fields -/

/-- The bytes of fields one after another, each a width and a number. -/
def fieldsBytes (fs : List (Nat × Nat)) : List Byte := fs.flatMap fun f => beBytes f.1 f.2

/-- The field that begins at an offset. -/
def fieldFrom : List (Nat × Nat) → Nat → Option (Nat × Nat)
  | [], _ => none
  | f :: fs, off => if off = 0 then some f else if f.1 ≤ off then fieldFrom fs (off - f.1) else none

theorem slice_fieldsBytes {fs : List (Nat × Nat)} {off n v : Nat} (h : fieldFrom fs off = some (n, v)) (rest : List Byte) :
    slice (fieldsBytes fs ++ rest) off n = beBytes n v := by
  induction fs generalizing off with
  | nil => simp [fieldFrom] at h
  | cons f fs ih =>
    have hcons : fieldsBytes (f :: fs) ++ rest = beBytes f.1 f.2 ++ (fieldsBytes fs ++ rest) := by simp [fieldsBytes]
    rw [fieldFrom] at h
    split at h
    · next h0 =>
      obtain rfl : f = (n, v) := by simpa using h
      rw [hcons, h0]
      simpa using slice_append [] (beBytes n v) (fieldsBytes fs ++ rest)
    · split at h
      · next hle =>
        have hskip : slice (fieldsBytes (f :: fs) ++ rest) off n = slice (fieldsBytes fs ++ rest) (off - f.1) n := by
          rw [hcons, slice, slice, List.drop_append, List.drop_of_length_le (by simpa using hle), beBytes_length, List.nil_append]
        rw [hskip, ih h]
      · cases h

section place
variable {a b d : List Byte} {fs : List (Nat × Nat)} {off n v : Nat}

/-- A field of a block that stands at an offset. -/
theorem fieldAt_within (hd : d = a ++ (fieldsBytes fs ++ b)) (ha : a.length = off) (j : Nat) (h : fieldFrom fs j = some (n, v)) :
    FieldAt d (off + j) n v := by
  rw [FieldAt, hd, slice, ← ha, List.drop_length_add_append]
  exact slice_fieldsBytes h b

/-- The field a block begins with. -/
theorem fieldAt_first (hd : d = a ++ (fieldsBytes fs ++ b)) (ha : a.length = off) (h : fieldFrom fs 0 = some (n, v)) : FieldAt d off n v :=
  fieldAt_within hd ha 0 h

/-- A field of a block, its offset told from the start of the string. -/
theorem fieldAt_at (hd : d = a ++ (fieldsBytes fs ++ b)) (ha : a.length = off) {o : Nat} (ho : off ≤ o) (h : fieldFrom fs (o - off) = some (n, v)) :
    FieldAt d o n v := by
  have hat := fieldAt_within hd ha (o - off) h
  rwa [Nat.add_sub_cancel' ho] at hat

end place

/-! ### Bytes of single values -/

theorem beBytes_one (v : Nat) : beBytes 1 v = [BitVec.ofNat 8 v] := rfl

theorem fieldsBytes_cons (f : Nat × Nat) (fs : List (Nat × Nat)) : fieldsBytes (f :: fs) = beBytes f.1 f.2 ++ fieldsBytes fs := rfl

theorem fieldsBytes_nil : fieldsBytes [] = [] := rfl

/-- The number of a time field, all ones for none (R177). -/
def timeNumber (t : Option Time) : Nat := (t.map (·.toNat)).getD (2 ^ 64 - 1)

theorem timeOrOnes_eq (t : Option Time) : timeOrOnes t = beBytes 8 (timeNumber t) := by
  cases t with
  | none => decide
  | some v => rfl

theorem timeOrZero_eq (t : Option Time) : timeOrZero t = beBytes 8 ((t.map (·.toNat)).getD 0) := by
  cases t with
  | none => decide
  | some v => rfl

theorem timeAt_of_field {d : List Byte} {off : Nat} {t : Option Time} (h : FieldAt d off 8 (timeNumber t)) : TimeAt d off t :=
  timeAt_of_slice (h.trans (timeOrOnes_eq t).symm)

theorem portOrNone_eq (p : Option PortId) : portOrNone p = BitVec.ofNat 8 ((p.map (·.val)).getD 0xFF) := by cases p <;> rfl

theorem getD_zero_eq (e : Option Byte) : e.getD 0 = BitVec.ofNat 8 ((e.map (·.toNat)).getD 0) := by
  cases e with
  | none => rfl
  | some v => simp

theorem roundedUp_ceilDiv {unit : Nat} (h : 0 < unit) (a : Nat) : RoundedUp unit a (ceilDiv a unit) := by
  have hdiv := Nat.div_add_mod (a + unit - 1) unit
  have hmod := Nat.mod_lt (a + unit - 1) h
  unfold RoundedUp ceilDiv
  omega

/-- Counters stand at six bytes each. -/
theorem fieldAt_counterBytes {m : Nat} {a b d : List Byte} {off : Nat} {v : Vector Counter m} (hd : d = a ++ (counterBytes v ++ b))
    (ha : a.length = off) (i : Fin m) : FieldAt d (off + 6 * i.val) 6 v[i].toNat := by
  have hblock : slice (counterBytes v) (6 * i.val) 6 = beBytes 6 v[i].toNat := by
    rw [counterBytes, slice_flatMap_of_length (f := fun c : Counter => beBytes 6 c.toNat) (k := 6) (fun c => beBytes_length ..) _ i.val (by simp)]
    simp
  have hroom : 6 * i.val + 6 ≤ (counterBytes v).length := by
    have hi := i.isLt
    rw [counterBytes_length]; omega
  rw [FieldAt, hd, slice, ← ha, List.drop_length_add_append, List.drop_append_of_le_length (by omega), List.take_append_of_le_length]
  · exact hblock
  · rw [List.length_drop]; omega

/-! ### Entry records (12.4.1) -/

section entry
variable (x : BitVec 16) (e : Entry)

def entryHeadFields : List (Nat × Nat) := [(1, e.valid.toNat), (1, directionCode e.direction), (1, e.ports.toNat)]

def vlanFields : VlanMatch → List (Nat × Nat)
  | .untagged => [(1, 0), (4, 0)]
  | .any => [(1, 1), (4, 0)]
  | .range lo hi => [(1, 2), (2, lo.toNat), (2, hi.toNat)]

def typeFields : Option (BitVec 16) → List (Nat × Nat)
  | none => [(1, 0), (2, x.toNat)]
  | some t => [(1, 1), (2, t.toNat)]

def actionFields : Action → List (Nat × Nat)
  | .protect c => [(1, 0), (2, c.val)]
  | .bypass => [(1, 1), (2, 0)]
  | .discard => [(1, 2), (2, 0)]

theorem entryHead_eq : [flagByte e.valid, BitVec.ofNat 8 (directionCode e.direction), e.ports.setWidth 8] = fieldsBytes (entryHeadFields e) := by
  rw [flagByte_eq, ← BitVec.ofNat_toNat]; rfl

theorem vlanBytes_eq (m : VlanMatch) : vlanBytes m = fieldsBytes (vlanFields m) := by cases m <;> rfl

theorem typeBytes_eq (t : Option (BitVec 16)) : typeBytes x t = fieldsBytes (typeFields x t) := by cases t <;> rfl

theorem actionBytes_eq (m : Action) : actionBytes m = fieldsBytes (actionFields m) := by cases m <;> rfl

end entry

/-! ### Slots and the data of CHAN-READ (R34) -/

def outFields (o : OutSlot) : List (Nat × Nat) :=
  [(1, outStateCode o.state), (1, (o.epoch.map (·.toNat)).getD 0), (3, (o.kcv.map (·.toNat)).getD 0),
   (6, match o.next with
    | .seq n => n.toNat
    | _ => 0), (8, timeNumber o.switchTime), (4, o.load.toNat), (4, o.inFlight)]

def inFields (now : Time) (i : InSlot) : List (Nat × Nat) :=
  [(1, inStateCode i.state), (1, (i.epoch.map (·.toNat)).getD 0), (3, (i.kcv.map (·.toNat)).getD 0), (6, i.top), (4, i.marks.length),
   (8, timeNumber i.firstVerify), (2, graceLeft now i), (4, i.load.toNat), (4, i.inFlight)]

def chanHeadFields (ch : Channel) : List (Nat × Nat) :=
  [(1, ch.isOpen.toNat), (2, ch.config.window), (6, ch.config.softLimit), (1, ch.config.auto.toNat), (2, ch.config.grace),
   (1, ch.config.returnCheck.toNat), (8, (ch.schedule.map (·.toNat)).getD 0)]

theorem kcvBytes_eq (k : Option Kcv) : beBytes 3 (k.getD 0).toNat = beBytes 3 ((k.map (·.toNat)).getD 0) := by cases k <;> rfl

theorem outSlotBytes_eq (o : OutSlot) : outSlotBytes o = fieldsBytes (outFields o) := by
  rw [outSlotBytes, getD_zero_eq, kcvBytes_eq, timeOrOnes_eq]
  simp only [outFields, fieldsBytes_cons, fieldsBytes_nil, beBytes_one, List.append_assoc, List.append_nil, List.cons_append, List.nil_append] <;> rfl

theorem inSlotBytes_eq (now : Time) (i : InSlot) : inSlotBytes now i = fieldsBytes (inFields now i) := by
  rw [inSlotBytes, getD_zero_eq, kcvBytes_eq, timeOrOnes_eq]
  simp only [inFields, fieldsBytes_cons, fieldsBytes_nil, beBytes_one, List.append_assoc, List.append_nil, List.cons_append, List.nil_append]

theorem chanHead_eq (ch : Channel) :
    [flagByte ch.isOpen] ++ configBytes ch.config ++ timeOrZero ch.schedule = fieldsBytes (chanHeadFields ch) := by
  rw [configBytes, flagByte_eq, flagByte_eq, flagByte_eq, timeOrZero_eq]
  simp only [chanHeadFields, fieldsBytes_cons, fieldsBytes_nil, beBytes_one, List.append_assoc, List.append_nil, List.cons_append, List.nil_append]

theorem outSlotAt_of_eq {a b d : List Byte} {off : Nat} {o : OutSlot} (hd : d = a ++ (outSlotBytes o ++ b)) (ha : a.length = off) :
    OutSlotAt d off o := by
  rw [outSlotBytes_eq] at hd
  have hnext := fieldAt_within (n := 6) hd ha 5 rfl
  refine ⟨fieldAt_first hd ha rfl, fieldAt_within hd ha 1 rfl, fieldAt_within hd ha 2 rfl, fun n hn => ?_, fun hn => ?_,
    timeAt_of_field (fieldAt_within hd ha 11 rfl), fieldAt_within hd ha 19 rfl, fieldAt_within hd ha 23 rfl⟩
  · rw [hn] at hnext; exact hnext
  · cases h : o.next with
    | seq n => exact absurd h (hn n)
    | _ => rw [h] at hnext; exact hnext

theorem graceLeft_fading {now : Time} {i : InSlot} {r : Timer} (hs : i.state = .fading) (ht : i.graceTimer = some r) :
    graceLeft now i = ceilDiv (timerLeft now r) 1000 := by rw [graceLeft, hs, ht]

theorem graceLeft_other {now : Time} {i : InSlot} (hs : i.state ≠ .fading) : graceLeft now i = 0 := by
  unfold graceLeft
  split
  · next h _ => exact absurd h hs
  · rfl

theorem inSlotAt_of_eq {a b d : List Byte} {off : Nat} {now : Time} {i : InSlot} (hd : d = a ++ (inSlotBytes now i ++ b)) (ha : a.length = off) :
    InSlotAt now d off i := by
  rw [inSlotBytes_eq] at hd
  have hgrace : FieldAt d (off + 23) 2 (graceLeft now i) := fieldAt_within hd ha 23 rfl
  refine ⟨fieldAt_first hd ha rfl, fieldAt_within hd ha 1 rfl, fieldAt_within hd ha 2 rfl, fieldAt_within hd ha 5 rfl, fieldAt_within hd ha 11 rfl,
    timeAt_of_field (fieldAt_within hd ha 15 rfl), fun hs => ?_, fun r hs ht => ?_, fieldAt_within hd ha 25 rfl, fieldAt_within hd ha 29 rfl⟩
  · rwa [graceLeft_other hs] at hgrace
  · rw [graceLeft_fading hs ht] at hgrace
    exact ⟨_, roundedUp_ceilDiv (by decide) _, hgrace⟩

/-! ### Lanes and the data of STATUS-READ (R164) -/

def laneFields (l : Lane) : List (Nat × Nat) :=
  [(1, conditionCode l.state), (1, l.peerRun), (1, (l.peerReport.map fun r => conditionCode r.1).getD 0xFF),
   (8, timeNumber (l.peerReport.map (·.2))), (1, loopModeCode l.loopMode), (1, loopCode l.loopField), (1, l.autoAccept.toNat), (1, l.persistence),
   (1, (l.loopRun.map fun r => loopCode r.1).getD 0), (8, timeNumber (l.loopRun.map (·.2))), (1, l.genOn.toNat), (4, l.rate), (2, l.innerLen),
   (1, l.locked.toNat), (1, l.goodRun), (1, l.judged.count false)]

theorem laneStateCode_eq (c : LaneState) : laneStateCode c = conditionCode c := by cases c <;> rfl

theorem loopFieldCode_eq (c : LoopField) : loopFieldCode c = loopCode c := by cases c <;> rfl

theorem badCount_eq (h : List Bool) : badCount h = h.count false := List.count_eq_length_filter.symm

theorem laneStatusBytes_eq (l : Lane) : laneStatusBytes l = fieldsBytes (laneFields l) := by
  unfold laneStatusBytes
  rw [timeOrOnes_eq, timeOrOnes_eq, flagByte_eq, flagByte_eq, flagByte_eq, laneStateCode_eq, loopFieldCode_eq, badCount_eq]
  cases hreport : l.peerReport <;> cases hrun : l.loopRun <;>
    simp only [laneFields, hreport, hrun, fieldsBytes_cons, fieldsBytes_nil, beBytes_one, laneStateCode_eq, loopFieldCode_eq, List.append_assoc,
      List.append_nil, List.cons_append, List.nil_append] <;> rfl

theorem laneAt_of_eq {a b d : List Byte} {off : Nat} {l : Lane} (hd : d = a ++ (laneStatusBytes l ++ b)) (ha : a.length = off) : LaneAt d off l := by
  rw [laneStatusBytes_eq] at hd
  exact ⟨fieldAt_first hd ha rfl, fieldAt_within hd ha 1 rfl, fieldAt_within hd ha 2 rfl, timeAt_of_field (fieldAt_within hd ha 3 rfl),
    fieldAt_within hd ha 11 rfl, fieldAt_within hd ha 12 rfl, fieldAt_within hd ha 13 rfl, fieldAt_within hd ha 14 rfl, fieldAt_within hd ha 15 rfl,
    timeAt_of_field (fieldAt_within hd ha 16 rfl), fieldAt_within hd ha 24 rfl, fieldAt_within hd ha 25 rfl, fieldAt_within hd ha 29 rfl,
    fieldAt_within hd ha 31 rfl, fieldAt_within hd ha 32 rfl, fieldAt_within hd ha 33 rfl⟩

/-- What STATUS-READ reports before the lanes. -/
def statusHeadFields (s : State) : List (Nat × Nat) :=
  [(1, partCode s.part), (1, statusCode s), (1, roleCode s.role), (1, (lockBit s).toNat), (8, s.time.toNat)]

/-- What STATUS-READ reports of the controller and the agent, up to the notice destination. -/
def statusTailFields (s : State) : List (Nat × Nat) :=
  [(1, (s.prot.selection.map (·.val)).getD 0xFF), (1, (s.prot.steering.map (·.val)).getD 0xFF), (1, (s.prot.echo.map (·.val)).getD 0xFF),
   (1, (s.prot.force.map (·.val)).getD 0xFF), (1, (s.prot.manual.map (·.val)).getD 0xFF), (1, s.prot.lockout.toNat), (2, s.prot.wtrSetting),
   (2, wtrLeft s), (1, s.prot.farFail.toNat), (1, (s.prot.candidate.map (·.val)).getD 0xFF), (1, s.prot.adoptCount), (1, s.agent.queue.length),
   (1, s.agent.devices.toNat), (2, s.agent.fifo.length), (2, s.agent.masks.toNat)]

/-- The notice destination, with the holdoff behind it. -/
def statusEndFields (a : Agent) : List (Nat × Nat) :=
  (match a.dest with
    | some (p, da) => [(1, placeCode p), (6, da.toNat)]
    | none => [(1, 0xFF), (6, 0)]) ++ [(1, a.holdoff.isSome.toNat)]

def lanesBytes (s : State) : List Byte := (List.finRange 5).flatMap fun k => laneStatusBytes (s.lane k)

theorem lanesBytes_length (s : State) : (lanesBytes s).length = 170 := by simp [lanesBytes, List.length_flatMap]

theorem lanesBytes_eq (s : State) : lanesBytes s = laneStatusBytes (s.lane 0) ++ (laneStatusBytes (s.lane 1) ++ (laneStatusBytes (s.lane 2) ++
    (laneStatusBytes (s.lane 3) ++ laneStatusBytes (s.lane 4)))) := by
  have hlanes : List.finRange 5 = [0, 1, 2, 3, 4] := by decide
  simp only [lanesBytes, hlanes, List.flatMap_cons, List.flatMap_nil, List.append_nil]

theorem statusBytes_eq (s : State) :
    statusBytes s = fieldsBytes (statusHeadFields s) ++ (lanesBytes s ++ (fieldsBytes (statusTailFields s) ++ fieldsBytes (statusEndFields s.agent))) := by
  unfold statusBytes
  cases hdest : s.agent.dest <;>
    simp only [statusHeadFields, statusTailFields, statusEndFields, lanesBytes_eq, hdest, flagByte_eq, portOrNone_eq, ← BitVec.ofNat_toNat,
      fieldsBytes_cons, fieldsBytes_nil, beBytes_one, List.append_assoc, List.append_nil, List.cons_append, List.nil_append] <;> rfl

/-- A string made of blocks, cut at block `i`. -/
theorem flatMap_cut {α : Type} (f : α → List Byte) (l : List α) (i : Nat) (h : i < l.length) :
    l.flatMap f = (l.take i).flatMap f ++ (f l[i] ++ (l.drop (i + 1)).flatMap f) := by
  rw [← List.flatMap_cons, ← List.flatMap_append, ← List.drop_eq_getElem_cons h, List.take_append_drop]

theorem flatMap_length_of {α : Type} {f : α → List Byte} {k : Nat} (hf : ∀ a, (f a).length = k) (l : List α) : (l.flatMap f).length = k * l.length := by
  simp [List.length_flatMap, hf, Nat.mul_comm]

theorem wtrLeft_stopped {s : State} (h : s.prot.wtrTimer = none) : wtrLeft s = 0xFFFF := by rw [wtrLeft, h]

theorem wtrLeft_running {s : State} {r : Timer} (h : s.prot.wtrTimer = some r) : wtrLeft s = ceilDiv (timerLeft s.time r) 1000000 := by
  rw [wtrLeft, h]

theorem laneAt_statusBytes (s : State) (k : LaneId) : LaneAt (statusBytes s) (12 + 34 * k.val) (s.lane k) := by
  have hk : k.val < (List.finRange 5).length := by simp
  have hcut := flatMap_cut (fun k => laneStatusBytes (s.lane k)) (List.finRange 5) k.val hk
  have hthis : (List.finRange 5)[k.val] = k := by simp
  rw [hthis] at hcut
  refine laneAt_of_eq (a := fieldsBytes (statusHeadFields s) ++ ((List.finRange 5).take k.val).flatMap fun k => laneStatusBytes (s.lane k))
    (b := ((List.finRange 5).drop (k.val + 1)).flatMap (fun k => laneStatusBytes (s.lane k)) ++
      (fieldsBytes (statusTailFields s) ++ fieldsBytes (statusEndFields s.agent))) ?_ ?_
  · rw [statusBytes_eq, lanesBytes, hcut]
    simp only [List.append_assoc]
  · rw [List.length_append, flatMap_length_of (fun k => laneStatusBytes_length (s.lane k)), List.length_take, Nat.min_eq_left hk.le]
    rfl

/-- The notice destination as STATUS-READ reports it. -/
theorem dest_statusBytes (s : State) : (s.agent.dest = none → FieldAt (statusBytes s) 201 1 0xFF ∧ FieldAt (statusBytes s) 202 6 0) ∧
    (∀ p a, s.agent.dest = some (p, a) → FieldAt (statusBytes s) 201 1 (placeCode p) ∧ FieldAt (statusBytes s) 202 6 a.toNat) ∧
    FieldAt (statusBytes s) 208 1 s.agent.holdoff.isSome.toNat := by
  have hd : statusBytes s = (fieldsBytes (statusHeadFields s) ++ (lanesBytes s ++ fieldsBytes (statusTailFields s))) ++
      (fieldsBytes (statusEndFields s.agent) ++ []) := by
    rw [statusBytes_eq]; simp only [List.append_assoc, List.append_nil]
  have ha : (fieldsBytes (statusHeadFields s) ++ (lanesBytes s ++ fieldsBytes (statusTailFields s))).length = 201 := by
    rw [List.length_append, List.length_append, lanesBytes_length]; rfl
  cases hdest : s.agent.dest with
  | none =>
    have hfields : statusEndFields s.agent = [(1, 0xFF), (6, 0), (1, s.agent.holdoff.isSome.toNat)] := by rw [statusEndFields, hdest]; rfl
    rw [hfields] at hd
    exact ⟨fun _ => ⟨fieldAt_first hd ha rfl, fieldAt_within hd ha 1 rfl⟩, fun _ _ h => (by cases h), fieldAt_within hd ha 7 rfl⟩
  | some d =>
    have hfields : statusEndFields s.agent = [(1, placeCode d.1), (6, d.2.toNat), (1, s.agent.holdoff.isSome.toNat)] := by
      rw [statusEndFields, hdest]; rfl
    rw [hfields] at hd
    refine ⟨fun h => (by cases h), fun p a h => ?_, fieldAt_within hd ha 7 rfl⟩
    obtain rfl : d = (p, a) := Option.some.inj h
    exact ⟨fieldAt_first hd ha rfl, fieldAt_within hd ha 1 rfl⟩

theorem roleCode_eq (r : Role) : roleCode r = if r = .campus then 1 else 0 := by cases r <;> rfl

/-! ### The layouts, one by one -/

theorem entryBytes_layout (x : BitVec 16) (e : Entry) (d : List Byte) (h : d = entryBytes x e) :
    d.length = 14 ∧ FieldAt d 0 1 e.valid.toNat ∧ FieldAt d 1 1 (directionCode e.direction) ∧ FieldAt d 2 1 e.ports.toNat ∧
    (∀ n v j, fieldFrom (vlanFields e.vlan) j = some (n, v) → FieldAt d (3 + j) n v) ∧
    (∀ n v j, fieldFrom (typeFields x e.etype) j = some (n, v) → FieldAt d (8 + j) n v) ∧
    ∀ n v j, fieldFrom (actionFields e.action) j = some (n, v) → FieldAt d (11 + j) n v := by
  have hlen : d.length = 14 := by rw [h, entryBytes_length]
  rw [entryBytes, entryHead_eq, vlanBytes_eq, typeBytes_eq, actionBytes_eq] at h
  have hvlan : (fieldsBytes (vlanFields e.vlan)).length = 5 := by rw [← vlanBytes_eq, vlanBytes_length]
  have htype : (fieldsBytes (typeFields x e.etype)).length = 3 := by rw [← typeBytes_eq, typeBytes_length]
  have hhead : d = [] ++ (fieldsBytes (entryHeadFields e) ++
      (fieldsBytes (vlanFields e.vlan) ++ (fieldsBytes (typeFields x e.etype) ++ fieldsBytes (actionFields e.action)))) := by
    rw [h]; simp only [List.append_assoc, List.nil_append]
  refine ⟨hlen, fieldAt_first hhead rfl rfl, fieldAt_within hhead rfl 1 rfl, fieldAt_within hhead rfl 2 rfl, fun n v j hj => ?_, fun n v j hj => ?_,
    fun n v j hj => ?_⟩
  · exact fieldAt_within (a := fieldsBytes (entryHeadFields e)) hhead rfl j hj
  · refine fieldAt_within (a := fieldsBytes (entryHeadFields e) ++ fieldsBytes (vlanFields e.vlan)) (b := fieldsBytes (actionFields e.action))
      (by rw [h]; simp only [List.append_assoc]) ?_ j hj
    rw [List.length_append, hvlan]; rfl
  · refine fieldAt_within (a := fieldsBytes (entryHeadFields e) ++ fieldsBytes (vlanFields e.vlan) ++ fieldsBytes (typeFields x e.etype)) (b := [])
      (by rw [h, List.append_nil]) ?_ j hj
    rw [List.length_append, List.length_append, hvlan, htype]; rfl

theorem replyMessage_layout (id : BitVec 16) (status : Nat) (records : List Record) (size : List Record → Nat) (d : List Byte)
    (h : d = replyMessage id status records) (hsize : ∀ l, size l = (l.map fun r => 4 + r.data.length).sum) :
    d.length = 4 + size records ∧ FieldAt d 0 2 id.toNat ∧ FieldAt d 2 1 records.length ∧ FieldAt d 3 1 status ∧
    ∀ pre r post, records = pre ++ r :: post → FieldAt d (4 + size pre) 1 r.code.toNat ∧ FieldAt d (5 + size pre) 1 (outcomeCode r.outcome) ∧
      FieldAt d (6 + size pre) 2 r.data.length ∧ slice d (8 + size pre) r.data.length = r.data := by
  have hrecord : ∀ r : Record, (recordBytes r).length = 4 + r.data.length := fun r => by simp [recordBytes]; omega
  have hrecords : ∀ l, (l.flatMap recordBytes).length = size l := fun l => by simp [hsize, List.length_flatMap, hrecord]
  have hhead : d = [] ++ (fieldsBytes [(2, id.toNat), (1, records.length), (1, status)] ++ records.flatMap recordBytes) := by rw [h]; rfl
  refine ⟨?_, fieldAt_first hhead rfl rfl, fieldAt_within hhead rfl 2 rfl, fieldAt_within hhead rfl 3 rfl, fun pre r post hcut => ?_⟩
  · rw [hhead, List.nil_append, List.length_append, hrecords]; rfl
  · have hr : recordBytes r = fieldsBytes [(1, r.code.toNat), (1, outcomeCode r.outcome), (2, r.data.length)] ++ r.data := by
      simp only [recordBytes, fieldsBytes_cons, fieldsBytes_nil, beBytes_one, BitVec.ofNat_toNat, BitVec.setWidth_eq, List.append_nil,
        List.cons_append, List.nil_append]
    have hd : d = (fieldsBytes [(2, id.toNat), (1, records.length), (1, status)] ++ pre.flatMap recordBytes) ++
        (fieldsBytes [(1, r.code.toNat), (1, outcomeCode r.outcome), (2, r.data.length)] ++ (r.data ++ post.flatMap recordBytes)) := by
      rw [hhead, hcut, List.flatMap_append, List.flatMap_cons, hr]
      simp only [List.append_assoc, List.nil_append]
    have ha : (fieldsBytes [(2, id.toNat), (1, records.length), (1, status)] ++ pre.flatMap recordBytes).length = 4 + size pre := by
      rw [List.length_append, hrecords]; rfl
    refine ⟨fieldAt_first hd ha rfl, ?_, ?_, ?_⟩
    · rw [show 5 + size pre = 4 + size pre + 1 by omega]
      exact fieldAt_within hd ha 1 rfl
    · rw [show 6 + size pre = 4 + size pre + 2 by omega]
      exact fieldAt_within hd ha 2 rfl
    · have hslice := slice_append ((fieldsBytes [(2, id.toNat), (1, records.length), (1, status)] ++ pre.flatMap recordBytes) ++
        fieldsBytes [(1, r.code.toNat), (1, outcomeCode r.outcome), (2, r.data.length)]) r.data (post.flatMap recordBytes)
      have hoff : 8 + size pre = ((fieldsBytes [(2, id.toNat), (1, records.length), (1, status)] ++ pre.flatMap recordBytes) ++
          fieldsBytes [(1, r.code.toNat), (1, outcomeCode r.outcome), (2, r.data.length)]).length := by
        rw [List.length_append, ha]; show _ = 4 + size pre + 4; omega
      rw [hd, hoff]
      simpa only [List.append_assoc] using hslice

/-- The snapshot of a notice (12.5). -/
def noticeFields (s : State) (devices : KindSet) (count left : Nat) : List (Nat × Nat) :=
  [(2, 0), (1, 0), (1, statusCode s), (1, devices.toNat), (1, conditionCode (s.lane 0).state), (1, conditionCode (s.lane 1).state),
   (1, conditionCode (s.lane 2).state), (1, conditionCode (s.lane 3).state), (1, conditionCode (s.lane 4).state),
   (1, (s.prot.selection.map (·.val)).getD 0xFF), (1, (s.prot.steering.map (·.val)).getD 0xFF), (1, (s.prot.echo.map (·.val)).getD 0xFF),
   (2, left), (1, count)]

def noticeEntryBytes (e : Chan × KindSet) : List Byte := beBytes 2 e.1.val ++ beBytes 2 e.2.toNat

theorem noticeMessage_eq (s : State) (devices : KindSet) (entries : List (Chan × KindSet)) (left : Nat) :
    noticeMessage s devices entries left = fieldsBytes (noticeFields s devices entries.length left) ++ entries.flatMap noticeEntryBytes := by
  unfold noticeMessage
  simp only [portOrNone_eq, laneStateCode_eq, noticeFields, fieldsBytes_cons, fieldsBytes_nil, beBytes_one, List.append_assoc, List.append_nil,
    List.cons_append, List.nil_append, List.map_cons, List.map_nil]
  rfl

theorem noticeMessage_layout (s : State) (devices : KindSet) (entries : List (Chan × KindSet)) (left : Nat) (d : List Byte)
    (h : d = noticeMessage s devices entries left) : d.length = 16 + 4 * entries.length ∧ FieldAt d 0 2 0 ∧ FieldAt d 2 1 0 ∧
      FieldAt d 3 1 (statusCode s) ∧ FieldAt d 4 1 devices.toNat ∧ (∀ k : LaneId, FieldAt d (5 + k.val) 1 (conditionCode (s.lane k).state)) ∧
      PortAt d 10 s.prot.selection ∧ PortAt d 11 s.prot.steering ∧ PortAt d 12 s.prot.echo ∧ FieldAt d 13 2 left ∧
      FieldAt d 15 1 entries.length ∧ ∀ i e, entries[i]? = some e → FieldAt d (16 + 4 * i) 2 e.1.val ∧ FieldAt d (18 + 4 * i) 2 e.2.toNat := by
  have hentry : ∀ e, (noticeEntryBytes e).length = 4 := fun e => by simp [noticeEntryBytes]
  rw [noticeMessage_eq] at h
  have hhead : d = [] ++ (fieldsBytes (noticeFields s devices entries.length left) ++ entries.flatMap noticeEntryBytes) := h
  refine ⟨?_, fieldAt_first hhead rfl rfl, fieldAt_within hhead rfl 2 rfl, fieldAt_within hhead rfl 3 rfl, fieldAt_within hhead rfl 4 rfl, fun k => ?_,
    fieldAt_within hhead rfl 10 rfl, fieldAt_within hhead rfl 11 rfl, fieldAt_within hhead rfl 12 rfl, fieldAt_within hhead rfl 13 rfl,
    fieldAt_within hhead rfl 15 rfl, fun i e he => ?_⟩
  · rw [h, List.length_append, flatMap_length_of hentry]; rfl
  · fin_cases k <;> exact fieldAt_at hhead rfl (Nat.zero_le _) rfl
  · obtain ⟨hi, rfl⟩ := List.getElem?_eq_some_iff.1 he
    have hd : d = (fieldsBytes (noticeFields s devices entries.length left) ++ (entries.take i).flatMap noticeEntryBytes) ++
        (fieldsBytes [(2, entries[i].1.val), (2, entries[i].2.toNat)] ++ (entries.drop (i + 1)).flatMap noticeEntryBytes) := by
      rw [h, flatMap_cut noticeEntryBytes entries i hi]
      simp only [List.append_assoc]
      rfl
    have ha : (fieldsBytes (noticeFields s devices entries.length left) ++ (entries.take i).flatMap noticeEntryBytes).length = 16 + 4 * i := by
      rw [List.length_append, flatMap_length_of hentry, List.length_take, Nat.min_eq_left hi.le]; rfl
    refine ⟨fieldAt_first hd ha rfl, ?_⟩
    rw [show 18 + 4 * i = 16 + 4 * i + 2 by omega]
    exact fieldAt_within hd ha 2 rfl

theorem pauseFrame_layout (sa : Addr) (q : Nat) (d : Frame) (h : d = pauseFrame sa q) :
    d.length = 64 ∧ FieldAt d 0 6 0x0180C2000001 ∧ FieldAt d 6 6 sa.toNat ∧ FieldAt d 12 2 0x8808 ∧ FieldAt d 14 2 1 ∧ FieldAt d 16 2 q ∧
    FieldAt d 18 42 0 ∧ fcsGood d = true := by
  have hzeros : beBytes 42 0 = List.replicate 42 0 := by decide
  have hbody : padTo 60 (addrBytes Config.pauseAddr sa ++ beBytes 2 Config.macControlType.toNat ++ beBytes 2 Config.pauseOpcode.toNat ++ beBytes 2 q) =
      fieldsBytes [(6, 0x0180C2000001), (6, sa.toNat), (2, 0x8808), (2, 1), (2, q), (42, 0)] := by
    simp only [padTo, fieldsBytes_cons, fieldsBytes_nil, hzeros, addrBytes, List.append_assoc, List.append_nil]
    rfl
  have hd : d = [] ++ (fieldsBytes [(6, 0x0180C2000001), (6, sa.toNat), (2, 0x8808), (2, 1), (2, q), (42, 0)] ++
      fcsOf (fieldsBytes [(6, 0x0180C2000001), (6, sa.toNat), (2, 0x8808), (2, 1), (2, q), (42, 0)])) := by
    rw [h, pauseFrame, hbody]; rfl
  refine ⟨?_, fieldAt_first hd rfl rfl, fieldAt_within hd rfl 6 rfl, fieldAt_within hd rfl 12 rfl, fieldAt_within hd rfl 14 rfl,
    fieldAt_within hd rfl 16 rfl, fieldAt_within hd rfl 18 rfl, ?_⟩
  · rw [h, pauseFrame, withFcs_length, hbody]; rfl
  · rw [h, pauseFrame, fcsGood_withFcs]

theorem chanReadBytes_layout (now : Time) (ch : Channel) (d : List Byte) (h : d = chanReadBytes now ch) :
    d.length = 219 ∧ FieldAt d 0 1 ch.isOpen.toNat ∧ FieldAt d 1 2 ch.config.window ∧ FieldAt d 3 6 ch.config.softLimit ∧
    FieldAt d 9 1 ch.config.auto.toNat ∧ FieldAt d 10 2 ch.config.grace ∧ FieldAt d 12 1 ch.config.returnCheck.toNat ∧
    FieldAt d 13 8 ((ch.schedule.map (·.toNat)).getD 0) ∧ OutSlotAt d 21 ch.outA ∧ OutSlotAt d 48 ch.outB ∧ InSlotAt now d 75 ch.inA ∧
    InSlotAt now d 108 ch.inB ∧ ∀ i : Fin 13, FieldAt d (141 + 6 * i.val) 6 ch.counters[i].toNat := by
  have hlen : d.length = 219 := by rw [h, chanReadBytes_length]
  rw [chanReadBytes, chanHead_eq] at h
  have hd : d = [] ++ (fieldsBytes (chanHeadFields ch) ++ (outSlotBytes ch.outA ++ (outSlotBytes ch.outB ++ (inSlotBytes now ch.inA ++
      (inSlotBytes now ch.inB ++ counterBytes ch.counters))))) := by rw [h]; simp only [List.append_assoc, List.nil_append]
  have hhead : (fieldsBytes (chanHeadFields ch)).length = 21 := rfl
  refine ⟨hlen, fieldAt_first hd rfl rfl, fieldAt_within hd rfl 1 rfl, fieldAt_within hd rfl 3 rfl, fieldAt_within hd rfl 9 rfl,
    fieldAt_within hd rfl 10 rfl, fieldAt_within hd rfl 12 rfl, fieldAt_within hd rfl 13 rfl, outSlotAt_of_eq hd hhead, ?_, ?_, ?_, fun i => ?_⟩
  · refine outSlotAt_of_eq (a := fieldsBytes (chanHeadFields ch) ++ outSlotBytes ch.outA) (hd.trans (List.append_assoc ..).symm) ?_
    rw [List.length_append, hhead, outSlotBytes_length]
  · refine inSlotAt_of_eq (a := fieldsBytes (chanHeadFields ch) ++ outSlotBytes ch.outA ++ outSlotBytes ch.outB)
      (b := inSlotBytes now ch.inB ++ counterBytes ch.counters) (by rw [h]; simp only [List.append_assoc]) ?_
    simp only [List.length_append, hhead, outSlotBytes_length]
  · refine inSlotAt_of_eq (a := fieldsBytes (chanHeadFields ch) ++ outSlotBytes ch.outA ++ outSlotBytes ch.outB ++ inSlotBytes now ch.inA)
      (b := counterBytes ch.counters) (by rw [h]; simp only [List.append_assoc]) ?_
    simp only [List.length_append, hhead, outSlotBytes_length, inSlotBytes_length]
  · refine fieldAt_counterBytes (a := fieldsBytes (chanHeadFields ch) ++ outSlotBytes ch.outA ++ outSlotBytes ch.outB ++ inSlotBytes now ch.inA ++
      inSlotBytes now ch.inB) (b := []) (by rw [h, List.append_nil]) ?_ i
    simp only [List.length_append, hhead, outSlotBytes_length, inSlotBytes_length]

/-- What STATUS-READ reports before and behind the lanes. -/
theorem statusBytes_layout (s : State) (d : List Byte) (h : d = statusBytes s) :
    (∀ n v j, fieldFrom (statusHeadFields s) j = some (n, v) → FieldAt d (0 + j) n v) ∧
    ∀ n v j, fieldFrom (statusTailFields s) j = some (n, v) → FieldAt d (182 + j) n v := by
  rw [statusBytes_eq] at h
  refine ⟨fun n v j hj => fieldAt_within (a := []) h rfl j hj, fun n v j hj => ?_⟩
  refine fieldAt_within (a := fieldsBytes (statusHeadFields s) ++ lanesBytes s) (h.trans (List.append_assoc ..).symm) ?_ j hj
  rw [List.length_append, lanesBytes_length]; rfl

/-! ### The places of PORT-COUNTS (R163) -/

theorem portPlaceBytes_layout (place : Nat) (p : Port) (d : List Byte) (h : d = portPlaceBytes place p) :
    d.length = 143 ∧ FieldAt d 0 1 place ∧ (∀ i : Fin 22, FieldAt d (1 + 6 * i.val) 6 p.counters[i].toNat) ∧
    FieldAt d 133 4 (totalBytes (p.buffer.map (·.bytes))) ∧ FieldAt d 137 1 p.inForce.toNat ∧
    FieldAt d 138 4 (totalBytes (p.queue.map (·.bytes))) ∧ FieldAt d 142 1 p.hold.isSome.toNat := by
  have hlen : d.length = 143 := by rw [h, portPlaceBytes_length]
  have hd : d = fieldsBytes [(1, place)] ++ (counterBytes p.counters ++
      fieldsBytes [(4, bufOccupancy p), (1, p.inForce.toNat), (4, queueOccupancy p), (1, p.hold.isSome.toNat)]) := by
    rw [h, portPlaceBytes, flagByte_eq, flagByte_eq]
    simp only [fieldsBytes_cons, fieldsBytes_nil, beBytes_one, List.append_assoc, List.append_nil]
  have htail : d = (fieldsBytes [(1, place)] ++ counterBytes p.counters) ++
      (fieldsBytes [(4, bufOccupancy p), (1, p.inForce.toNat), (4, queueOccupancy p), (1, p.hold.isSome.toNat)] ++ []) := by
    rw [hd, List.append_assoc, List.append_nil]
  have ha : (fieldsBytes [(1, place)] ++ counterBytes p.counters).length = 133 := by rw [List.length_append, counterBytes_length]; rfl
  exact ⟨hlen, fieldAt_first (hd.trans (List.nil_append _).symm) rfl rfl, fieldAt_counterBytes hd rfl, fieldAt_first htail ha rfl, fieldAt_within htail ha 4 rfl,
    fieldAt_within htail ha 5 rfl, fieldAt_within htail ha 9 rfl⟩

theorem lanePlaceBytes_layout (place : Nat) (l : Lane) (d : List Byte) (h : d = lanePlaceBytes place l) :
    d.length = 208 ∧ FieldAt d 0 1 place ∧ (∀ i : Fin 34, FieldAt d (1 + 6 * i.val) 6 l.counters[i].toNat) ∧
    FieldAt d 205 1 l.control.length ∧ FieldAt d 206 2 (totalBytes l.returnQueue) := by
  have hlen : d.length = 208 := by rw [h, lanePlaceBytes_length]
  have hd : d = fieldsBytes [(1, place)] ++ (counterBytes l.counters ++ fieldsBytes [(1, l.control.length), (2, totalBytes l.returnQueue)]) := by
    rw [h, lanePlaceBytes]
    simp only [fieldsBytes_cons, fieldsBytes_nil, beBytes_one, List.append_assoc, List.append_nil]
  have htail : d = (fieldsBytes [(1, place)] ++ counterBytes l.counters) ++
      (fieldsBytes [(1, l.control.length), (2, totalBytes l.returnQueue)] ++ []) := by rw [hd, List.append_assoc, List.append_nil]
  have ha : (fieldsBytes [(1, place)] ++ counterBytes l.counters).length = 205 := by rw [List.length_append, counterBytes_length]; rfl
  exact ⟨hlen, fieldAt_first (hd.trans (List.nil_append _).symm) rfl rfl, fieldAt_counterBytes hd rfl, fieldAt_first htail ha rfl, fieldAt_within htail ha 1 rfl⟩

theorem agentPlaceBytes_layout (g : Agent) (d : List Byte) (h : d = agentPlaceBytes g) :
    d.length = 56 ∧ FieldAt d 0 1 9 ∧ (∀ i : Fin 9, FieldAt d (1 + 6 * i.val) 6 g.counters[i].toNat) ∧ FieldAt d 55 1 g.queue.length := by
  have hlen : d.length = 56 := by rw [h, agentPlaceBytes_length]
  have hd : d = fieldsBytes [(1, 9)] ++ (counterBytes g.counters ++ fieldsBytes [(1, g.queue.length)]) := by
    rw [h, agentPlaceBytes, List.append_assoc]; rfl
  have htail : d = (fieldsBytes [(1, 9)] ++ counterBytes g.counters) ++ (fieldsBytes [(1, g.queue.length)] ++ []) := by
    rw [hd, List.append_assoc, List.append_nil]
  have ha : (fieldsBytes [(1, 9)] ++ counterBytes g.counters).length = 55 := by rw [List.length_append, counterBytes_length]; rfl
  exact ⟨hlen, fieldAt_first (hd.trans (List.nil_append _).symm) rfl rfl, fieldAt_counterBytes hd rfl, fieldAt_first htail ha rfl⟩

/-- Settles O48: by the width of what stands before each field. -/
theorem readLayouts : Obligations.ReadLayouts := by
  unfold Obligations.ReadLayouts
  refine ⟨⟨fun x e d hd => ?_, fun id status records size d hd hsize => ?_, noticeMessage_layout, pauseFrame_layout⟩, chanReadBytes_layout,
    fun s d hd => ?_, fun clear s n d hd => ?_, fun clear s k d hd => ?_, fun clear s d hd => ?_⟩
  · obtain ⟨hlen, hvalid, hdir, hports, hvlan, htype, haction⟩ := entryBytes_layout x e d hd
    refine ⟨hlen, hvalid, ?_, hports, fun h => ?_, fun h => ?_, fun lo hi h => ?_, fun h => ?_, fun v h => ?_, fun c h => ?_, fun h => ?_, fun h => ?_⟩
    · exact hdir
    iterate 2
      rw [h] at hvlan
      exact ⟨hvlan _ _ 0 rfl, hvlan _ _ 1 rfl⟩
    · rw [h] at hvlan
      exact ⟨hvlan _ _ 0 rfl, hvlan _ _ 1 rfl, hvlan _ _ 3 rfl⟩
    iterate 2
      rw [h] at htype
      exact ⟨htype _ _ 0 rfl, htype _ _ 1 rfl⟩
    all_goals
      rw [h] at haction
      exact ⟨haction _ _ 0 rfl, haction _ _ 1 rfl⟩
  · exact replyMessage_layout id status records size d hd hsize
  · obtain ⟨hhead, htail⟩ := statusBytes_layout s d hd
    obtain ⟨hnone, hsome, hholdoff⟩ := dest_statusBytes s
    have hwtr : FieldAt d 190 2 (wtrLeft s) := htail _ _ 8 rfl
    have hrole : FieldAt d 2 1 (roleCode s.role) := hhead _ _ 2 rfl
    refine ⟨by rw [hd, statusBytes_length], hhead _ _ 0 rfl, hhead _ _ 1 rfl, roleCode_eq s.role ▸ hrole, hhead _ _ 3 rfl, hhead _ _ 4 rfl,
      fun k => hd ▸ laneAt_statusBytes s k, htail _ _ 0 rfl, htail _ _ 1 rfl, htail _ _ 2 rfl, htail _ _ 3 rfl, htail _ _ 4 rfl, htail _ _ 5 rfl,
      htail _ _ 6 rfl, fun h => wtrLeft_stopped h ▸ hwtr, fun r h => ⟨_, roundedUp_ceilDiv (by decide) _, wtrLeft_running h ▸ hwtr⟩,
      htail _ _ 10 rfl, htail _ _ 11 rfl, htail _ _ 12 rfl, htail _ _ 13 rfl, htail _ _ 14 rfl, htail _ _ 15 rfl, htail _ _ 17 rfl,
      hd ▸ hnone, fun n a h => ?_, fun k a h => ?_, hd ▸ hholdoff⟩
    · rw [hd]; exact hsome _ a h
    · rw [hd]; exact hsome _ a h
  · exact portPlaceBytes_layout n.val (s.port n) d (hd.trans (by rw [readPlace_port]))
  · exact lanePlaceBytes_layout (k.val + 4) (s.lane k) d (hd.trans (by rw [readPlace_lane]))
  · exact agentPlaceBytes_layout s.agent d (hd.trans (by rw [readPlace_agent]))

end Sys2Proof.Layouts
end

section
/-! Nonce, counter mode and tag, the bytes of the frames the part builds, and that verify opens what protect sealed (R2, R3, R8 to R11, R150). -/

namespace Sys2Proof.Sealing
open Sys2Proof.Machine Sys2Proof.Safety Sys2Proof.Layouts

/-! ### The nonce and the head of an envelope frame (R8, R9) -/

theorem numAt_of_fieldAt {d : List Byte} {off n v : Nat} (h : FieldAt d off n v) (hv : v < 256 ^ n) : numAt d off n = v := by
  rw [numAt, show slice d off n = beBytes n v from h, beNat_beBytes, Nat.mod_eq_of_lt hv]

theorem nonceOf_read (salt : Salt) (h : Header) : numAt (nonceOf salt h) 0 4 = salt.toNat ∧ numAt (nonceOf salt h) 4 2 = h.chanField.toNat ∧
    numAt (nonceOf salt h) 6 6 = h.seq.toNat := by
  have hd : nonceOf salt h = [] ++ (fieldsBytes [(4, salt.toNat), (2, h.chanField.toNat), (6, h.seq.toNat)] ++ []) := by
    simp only [nonceOf, fieldsBytes_cons, fieldsBytes_nil, List.append_assoc, List.append_nil, List.nil_append]
  exact ⟨numAt_of_fieldAt (fieldAt_first hd rfl rfl) salt.isLt, numAt_of_fieldAt (fieldAt_within hd rfl 4 rfl) h.chanField.isLt,
    numAt_of_fieldAt (fieldAt_within hd rfl 6 rfl) h.seq.isLt⟩

/-- The 24 bytes that begin an envelope frame, as fields. -/
def headFields (da sa : Addr) (h : Header) : List (Nat × Nat) :=
  [(6, da.toNat), (6, sa.toNat), (2, 0x9A3C), (1, h.control.toNat), (1, h.epoch.toNat), (2, h.chanField.toNat), (6, h.seq.toNat)]

theorem head_eq (da sa : Addr) (h : Header) : addrBytes da sa ++ headerBytes h = fieldsBytes (headFields da sa h) := by
  simp only [addrBytes, headerBytes, headFields, fieldsBytes_cons, fieldsBytes_nil, beBytes_one, BitVec.ofNat_toNat, BitVec.setWidth_eq,
    List.append_assoc, List.append_nil, List.cons_append, List.nil_append]
  rfl

theorem head_length (da sa : Addr) (h : Header) : (addrBytes da sa ++ headerBytes h).length = 24 := by simp

theorem head_read (da sa : Addr) (h : Header) (head : List Byte) (hhead : head = addrBytes da sa ++ headerBytes h) :
    numAt head 0 6 = da.toNat ∧ numAt head 6 6 = sa.toNat ∧ numAt head 12 2 = 0x9A3C ∧ numAt head 14 1 = h.control.toNat ∧
    numAt head 15 1 = h.epoch.toNat ∧ numAt head 16 2 = h.chanField.toNat ∧ numAt head 18 6 = h.seq.toNat := by
  have hd : head = [] ++ (fieldsBytes (headFields da sa h) ++ []) := by rw [hhead, head_eq, List.append_nil, List.nil_append]
  exact ⟨numAt_of_fieldAt (fieldAt_first hd rfl rfl) da.isLt, numAt_of_fieldAt (fieldAt_within hd rfl 6 rfl) sa.isLt,
    numAt_of_fieldAt (fieldAt_within hd rfl 12 rfl) (by decide), numAt_of_fieldAt (fieldAt_within hd rfl 14 rfl) h.control.isLt,
    numAt_of_fieldAt (fieldAt_within hd rfl 15 rfl) h.epoch.isLt, numAt_of_fieldAt (fieldAt_within hd rfl 16 rfl) h.chanField.isLt,
    numAt_of_fieldAt (fieldAt_within hd rfl 18 rfl) h.seq.isLt⟩

/-! ### What protect gives (R10) -/

section protect
variable {key : Key} {nonce aad text ct tag : List Byte}

theorem protectText_iff : protectText key nonce aad text = (ct, tag) ↔ ct = gcmText key nonce text ∧ tag = gcmTag key nonce aad ct := by
  unfold protectText
  simp only [Prod.mk.injEq]
  constructor
  · rintro ⟨hct, htag⟩; exact ⟨hct.symm, by rw [← hct, htag]⟩
  · rintro ⟨hct, htag⟩; exact ⟨hct.symm, by rw [htag, hct]⟩

theorem protectText_spec (hn : nonce.length = 12) (h : protectText key nonce aad text = (ct, tag)) : ct.length = text.length ∧ tag.length = 16 ∧
    (∀ j b, text[j]? = some b → ct[j]? = some (b ^^^ (aes key (nonce ++ beBytes 4 (2 + j / 16))).getD (j % 16) 0)) ∧
    tag = xorBytes (beBytes 16 (ghash (BitVec.ofNat 128 (beNat (aes key (List.replicate 16 0)))) (gcmBlocks aad.length aad ++ gcmBlocks ct.length ct ++
      [BitVec.ofNat 128 (8 * aad.length * 2 ^ 64 + 8 * ct.length)])).toNat) (aes key (nonce ++ [0, 0, 0, 1])) := by
  obtain ⟨hct, htag⟩ := protectText_iff.1 h
  refine ⟨by rw [hct, gcmText_length key hn], by rw [htag, gcmTag_length key hn], fun j b hb => ?_, ?_⟩
  · rw [hct, gcmText_get key hn, hb]; rfl
  · rw [htag, Nat.mul_comm 8 aad.length, Nat.mul_comm 8 ct.length]; rfl

theorem protectText_nil_iff (hn : nonce.length = 12) : protectText key nonce aad text = ([], tag) ↔ text = [] ∧ protectText key nonce aad [] = ([], tag) := by
  constructor
  · intro h
    have hlen := (protectText_spec hn h).1
    obtain rfl : text = [] := List.eq_nil_of_length_eq_zero (by simpa using hlen.symm)
    exact ⟨rfl, h⟩
  · rintro ⟨rfl, h⟩; exact h

end protect

/-! ### When a frame verifies (R11) -/

section received
variable {f : Frame} {head inner tag : List Byte}

theorem headBytes_of_body (hbody : frameBody f = head ++ inner ++ tag) (hh : head.length = 24) : headBytes f = head := by
  rw [headBytes, hbody, ← hh, List.append_assoc, List.take_left]

theorem sealedPart_of_body (hbody : frameBody f = head ++ inner ++ tag) (hh : head.length = 24) (ht : tag.length = 16) : sealedPart f = inner := by
  have hlen : (head ++ inner ++ tag).length - 40 = inner.length := by simp only [List.length_append]; omega
  rw [sealedPart, hbody, hlen, ← hh, List.append_assoc, List.drop_left, List.take_left]

theorem sealedTag_of_body (hbody : frameBody f = head ++ inner ++ tag) (ht : tag.length = 16) : sealedTag f = tag := by
  have hlen : (head ++ inner ++ tag).length - 16 = (head ++ inner).length := by rw [List.length_append, ht]; omega
  rw [sealedTag, hbody, hlen, List.drop_left]

theorem openFrame_text_iff {key : Key} {salt : Salt} {text : List Byte} (hbody : frameBody f = head ++ inner ++ tag) (hh : head.length = 24)
    (ht : tag.length = 16) (hc : headerChan (headerOf f) ≠ 1) :
    openFrame key salt f = some text ↔ protectText key (nonceOf salt (headerOf f)) head text = (inner, tag) := by
  rw [openFrame, if_neg hc, headBytes_of_body hbody hh, sealedPart_of_body hbody hh ht, sealedTag_of_body hbody ht, verifyText_iff key (by simp)]

theorem openFrame_link_iff {key : Key} {salt : Salt} {text : List Byte} (hbody : frameBody f = head ++ inner ++ tag) (hh : head.length = 24)
    (ht : tag.length = 16) (hc : headerChan (headerOf f) = 1) : openFrame key salt f = some text ↔
      text = inner ∧ protectText key (nonceOf salt (headerOf f)) (head ++ inner) [] = ([], tag) := by
  rw [openFrame, if_pos hc, headBytes_of_body hbody hh, sealedPart_of_body hbody hh ht, sealedTag_of_body hbody ht, Option.map_eq_some_iff]
  have hn := nonceOf_length salt (headerOf f)
  constructor
  · rintro ⟨t, h, rfl⟩
    exact ⟨rfl, ((protectText_nil_iff hn).1 ((verifyText_iff key hn _ _ _ _).1 h)).2⟩
  · rintro ⟨rfl, h⟩
    exact ⟨[], (verifyText_iff key hn _ _ _ _).2 h, rfl⟩

end received

/-! ### The frames of the part (R2, R3, R10) -/

theorem clearPart_of_body {f : Frame} {head msg : List Byte} (hbody : frameBody f = head ++ msg) (hh : head.length = 24) : clearPart f = msg := by
  rw [clearPart, hbody, ← hh, List.drop_left]

/-- The first 12 bytes of a frame hold its addresses. -/
theorem frameAddrs_congr {f g : Frame} (h : g.take 12 = f.take 12) : frameDa g = frameDa f ∧ frameSa g = frameSa f := by
  have hslice : ∀ i, i + 6 ≤ 12 → slice g i 6 = slice f i 6 := fun i hi => by
    have htake : ∀ l : List Byte, slice (l.take 12) i 6 = slice l i 6 := fun l => by
      rw [slice, slice, List.drop_take, List.take_take, Nat.min_eq_left (by omega)]
    rw [← htake g, ← htake f, h]
  unfold frameDa frameSa numAt
  rw [hslice 0 (by decide), hslice 6 (by decide)]
  exact ⟨rfl, rfl⟩

theorem recoveredFrame_read (f : Frame) (text : List Byte) (hf : 16 ≤ f.length) :
    frameBody (recoveredFrame f text) = f.take 12 ++ text ++ List.replicate (48 - text.length) 0 ∧ frameDa (recoveredFrame f text) = frameDa f ∧
    frameSa (recoveredFrame f text) = frameSa f ∧ (recoveredFrame f text).length = max 64 (text.length + 16) ∧
    fcsGood (recoveredFrame f text) = true := by
  have htake : (f.take 12).length = 12 := by rw [List.length_take]; omega
  rw [recoveredFrame_eq (by omega)]
  have haddr : (withFcs (f.take 12 ++ text ++ List.replicate (48 - text.length) 0)).take 12 = f.take 12 := by
    simp only [withFcs, List.append_assoc]
    rw [List.take_append_of_le_length (by omega), List.take_take, Nat.min_self]
  obtain ⟨hda, hsa⟩ := frameAddrs_congr haddr
  refine ⟨frameBody_withFcs _, hda, hsa, ?_, fcsGood_withFcs _⟩
  rw [withFcs_length, List.length_append, List.length_append, htake, List.length_replicate]
  omega

theorem invertTag_eq {tag : List Byte} (h : tag.length = 16) : invertTag tag = (tag.getD 0 0 ^^^ 0x80) :: tag.drop 1 := by
  cases tag with
  | nil => cases h
  | cons t ts => rfl

theorem invertTag_ne {tag : List Byte} (h : tag.length = 16) : invertTag tag ≠ tag := by
  cases tag with
  | nil => cases h
  | cons t ts =>
    intro he
    have hx : t ^^^ 0x80 = t := (List.cons.inj he).1
    have h0 : (0x80 : Byte) = 0 := by
      calc (0x80 : Byte) = t ^^^ (t ^^^ 0x80) := by rw [← BitVec.xor_assoc, BitVec.xor_self, BitVec.zero_xor]
        _ = 0 := by rw [hx, BitVec.xor_self]; rfl
    exact absurd h0 (by decide)

theorem invertTag_length (tag : List Byte) : (invertTag tag).length = tag.length := by cases tag <;> rfl

section built
variable {key : Key} {salt : Salt} {da sa : Addr} {h : Header} {head : List Byte}

/-- A frame of a traffic channel or channel 0, sealed and opened. -/
theorem sealText_opens (hhead : head = addrBytes da sa ++ headerBytes h) (text : List Byte) (hc : headerChan h ≠ 1) :
    ∃ f ct tag, f = sealText key salt da sa h text ∧ protectText key (nonceOf salt h) head text = (ct, tag) ∧
      frameBody f = head ++ ct ++ tag ∧ openFrame key salt f = some text ∧ headerOf f = h ∧ frameDa f = da ∧
      frameSa f = sa ∧ f.length = text.length + 44 ∧ fcsGood f = true ∧ hasMarker f = true := by
  have h24 : head.length = 24 := by rw [hhead, head_length]
  obtain ⟨ct, tag, hp⟩ : ∃ ct tag, protectText key (nonceOf salt h) head text = (ct, tag) := ⟨_, _, rfl⟩
  obtain ⟨hct, htag, -, -⟩ := protectText_spec (nonceOf_length salt h) hp
  have hf : sealText key salt da sa h text = withFcs (head ++ ct ++ tag) := by simp only [sealText, ← hhead, hp]
  obtain ⟨hhdr, hda, hsa, hlen, hmark, hfcs⟩ := envelopeFrame_read da sa h (ct ++ tag) (sealText key salt da sa h text)
    (by rw [hf, ← hhead, List.append_assoc])
  have hbody : frameBody (sealText key salt da sa h text) = head ++ ct ++ tag := by rw [hf, frameBody_withFcs]
  refine ⟨_, ct, tag, rfl, hp, hbody, ?_, hhdr, hda, hsa, ?_, hfcs, hmark⟩
  · rw [openFrame_text_iff hbody h24 htag (by rw [hhdr]; exact hc), hhdr, hp]
  · rw [hlen, List.length_append, hct, htag]

theorem sealLink_eq (hhead : head = addrBytes da sa ++ headerBytes h) (payload : List Byte) {tag : List Byte}
    (hp : protectText key (nonceOf salt h) (head ++ payload) [] = ([], tag)) (inject : Bool) :
    sealLink key salt da sa h payload inject = withFcs (head ++ payload ++ if inject then invertTag tag else tag) := by
  simp only [sealLink, ← hhead, hp]

/-- A frame of channel 1, sealed and opened, and one whose tag was altered. -/
theorem sealLink_opens (hhead : head = addrBytes da sa ++ headerBytes h) (text : List Byte) (hc : headerChan h = 1) :
    ∃ f g tag, f = sealLink key salt da sa h text false ∧ g = sealLink key salt da sa h text true ∧
      protectText key (nonceOf salt h) (head ++ text) [] = ([], tag) ∧ frameBody f = head ++ text ++ tag ∧
      frameBody g = head ++ text ++ ((tag.getD 0 0 ^^^ 0x80) :: tag.drop 1) ∧ openFrame key salt f = some text ∧
      openFrame key salt g = none ∧ headerOf f = h ∧ frameDa f = da ∧ frameSa f = sa ∧ f.length = text.length + 44 ∧ fcsGood f = true ∧
      fcsGood g = true ∧ hasMarker f = true := by
  have h24 : head.length = 24 := by rw [hhead, head_length]
  obtain ⟨tag, hp⟩ : ∃ tag, protectText key (nonceOf salt h) (head ++ text) [] = ([], tag) := ⟨_, rfl⟩
  have htag : tag.length = 16 := (protectText_spec (nonceOf_length salt h) hp).2.1
  have hf : sealLink key salt da sa h text false = withFcs (head ++ text ++ tag) := sealLink_eq hhead text hp false
  have hg : sealLink key salt da sa h text true = withFcs (head ++ text ++ invertTag tag) := sealLink_eq hhead text hp true
  obtain ⟨hhdr, hda, hsa, hlen, hmark, hfcs⟩ := envelopeFrame_read da sa h (text ++ tag) (sealLink key salt da sa h text false)
    (by rw [hf, ← hhead, List.append_assoc])
  obtain ⟨hhdr', -, -, -, -, hfcs'⟩ := envelopeFrame_read da sa h (text ++ invertTag tag) (sealLink key salt da sa h text true)
    (by rw [hg, ← hhead, List.append_assoc])
  have hbody : frameBody (sealLink key salt da sa h text false) = head ++ text ++ tag := by rw [hf, frameBody_withFcs]
  have hbody' : frameBody (sealLink key salt da sa h text true) = head ++ text ++ invertTag tag := by rw [hg, frameBody_withFcs]
  refine ⟨_, _, tag, rfl, rfl, hp, hbody, by rw [hbody', invertTag_eq htag], ?_, ?_, hhdr, hda, hsa, ?_, hfcs, hfcs', hmark⟩
  · rw [openFrame_link_iff hbody h24 htag (by rw [hhdr]; exact hc), hhdr]
    exact ⟨rfl, hp⟩
  · refine Option.eq_none_iff_forall_ne_some.2 fun t ht => ?_
    obtain ⟨-, hp'⟩ := (openFrame_link_iff hbody' h24 (by rw [invertTag_length, htag]) (by rw [hhdr']; exact hc)).1 ht
    rw [hhdr', hp] at hp'
    exact invertTag_ne htag (Prod.mk.inj hp').2.symm
  · rw [hlen, List.length_append, htag]

end built

/-- Settles O54: from the bytes each builder writes, and from verify undoing protect. -/
theorem verifyOpensProtect : Obligations.VerifyOpensProtect := by
  unfold Obligations.VerifyOpensProtect
  refine ⟨?_, fun key nonce aad text ct tag hn hp => protectText_spec hn hp, ?_, ⟨?_, ?_, fun _ _ => rfl, ?_⟩, ?_⟩
  · rintro salt da sa h nonce head rfl hhead
    obtain ⟨hsalt, hchan, hseq⟩ := nonceOf_read salt h
    exact ⟨nonceOf_length .., hsalt, hchan, hseq, by rw [hhead, head_length], head_read da sa h head hhead⟩
  · rintro key salt f nonce head inner tag text - rfl hbody hh ht
    exact ⟨openFrame_text_iff hbody hh ht, openFrame_link_iff hbody hh ht⟩
  · rintro da sa h msg head f hhead rfl
    obtain ⟨hhdr, hda, hsa, hlen, hmark, hfcs⟩ := envelopeFrame_read da sa h msg (clearFrame da sa h msg) rfl
    exact ⟨by rw [clearFrame, frameBody_withFcs, hhead], hhdr, hda, hsa, hlen, hfcs, hmark⟩
  · exact fun f head msg hbody hh => clearPart_of_body hbody hh
  · rintro f g text hf rfl
    exact recoveredFrame_read f text hf
  · exact fun key salt da sa h text head hhead => ⟨sealText_opens hhead text, sealLink_opens hhead text⟩

end Sys2Proof.Sealing
end

section
/-! Keys and salts are never read back: what a directive other than KEY-COMMIT answers is the same with every key and salt blanked (R21, R22, R25). -/

namespace Sys2Proof.KeyBlindness
open Sys2Proof.Machine Sys2Proof.Safety

/-! ### The part with its keys and salts blanked -/

def blankOut (o : OutSlot) : OutSlot := { o with key := 0, salt := 0 }

def blankIn (i : InSlot) : InSlot := { i with key := 0, salt := 0 }

def blankChan (ch : Channel) : Channel :=
  { ch with outA := blankOut ch.outA, outB := blankOut ch.outB, inA := blankIn ch.inA, inB := blankIn ch.inB }

/-- The state with every key and salt in a slot or in the staging buffer set to 0. -/
def blank (s : State) : State :=
  { s with channels := mapVec blankChan s.channels, staging := { s.staging with key := 0, salt := 0 } }

/-- A record with the keys and salts of another. -/
def withKeysOf (ch d : Channel) : Channel :=
  { ch with
    outA := { ch.outA with key := d.outA.key, salt := d.outA.salt }
    outB := { ch.outB with key := d.outB.key, salt := d.outB.salt }
    inA := { ch.inA with key := d.inA.key, salt := d.inA.salt }
    inB := { ch.inB with key := d.inB.key, salt := d.inB.salt } }

section
variable {s t : State}

theorem blank_chan (s : State) (c : Chan) : (blank s).chan c = blankChan (s.chan c) := mapVec_get ..

theorem sameButSlotKeys_iff (ch d : Channel) : SameButSlotKeys ch d ↔ blankChan ch = blankChan d := by
  constructor
  · intro h
    have hd : d = withKeysOf ch d := h
    rw [hd]; rfl
  · intro h
    show d = withKeysOf ch d
    calc d = withKeysOf (blankChan d) d := rfl
      _ = withKeysOf (blankChan ch) d := by rw [h]
      _ = withKeysOf ch d := rfl

/-- Two states differ in keys and salts alone exactly when they are the same with these blanked. -/
theorem sameButKeys_iff : SameButKeys s t ↔ blank s = blank t := by
  constructor
  · rintro ⟨hchan, heq⟩
    have hchannels : mapVec blankChan s.channels = mapVec blankChan t.channels := Vector.ext fun i hi => by
      have h := (sameButSlotKeys_iff _ _).1 (hchan ⟨i, hi⟩)
      rw [← blank_chan, ← blank_chan] at h
      exact h
    rw [blank, hchannels, heq]
    rfl
  · intro h
    refine ⟨fun c => (sameButSlotKeys_iff _ _).2 (by rw [← blank_chan, ← blank_chan, h]), ?_⟩
    calc t = { blank t with channels := t.channels, staging := { (blank t).staging with key := t.staging.key, salt := t.staging.salt } } := rfl
      _ = { blank s with channels := t.channels, staging := { (blank s).staging with key := t.staging.key, salt := t.staging.salt } } := by rw [h]
      _ = _ := rfl

theorem mapVec_mapVec {n : Nat} {α : Type} (f g : α → α) (v : Vector α n) : mapVec f (mapVec g v) = mapVec (fun x => f (g x)) v :=
  Vector.ext fun i hi => by
    calc (mapVec f (mapVec g v))[i] = f (mapVec g v)[i] := mapVec_get f _ ⟨i, hi⟩
      _ = f (g v[i]) := congrArg f (mapVec_get g v ⟨i, hi⟩)
      _ = (mapVec (fun x => f (g x)) v)[i] := (mapVec_get (fun x => f (g x)) v ⟨i, hi⟩).symm

theorem blank_blank (s : State) : blank (blank s) = blank s := by
  have h : mapVec blankChan (mapVec blankChan s.channels) = mapVec blankChan s.channels := mapVec_mapVec ..
  calc blank (blank s) = { blank s with channels := mapVec blankChan (mapVec blankChan s.channels) } := rfl
    _ = blank s := by rw [h]; rfl

end

/-! ### What a directive answers, with its state blanked -/

def blanked : DirResult → DirResult
  | .ended o data s => .ended o data (blank s)
  | .begun s => .begun (blank s)

/-- What the directive answers does not depend on keys and salts. -/
def Blind (f : State → DirResult) : Prop := ∀ s, blanked (f (blank s)) = blanked (f s)

/-- The directive answers a blanked state as it does the state itself, and leaves it blanked. -/
def Commutes (f : State → DirResult) : Prop := ∀ s, f (blank s) = blanked (f s)

theorem blanked_blanked (r : DirResult) : blanked (blanked r) = blanked r := by
  cases r with
  | ended o data s => rw [blanked, blanked, blank_blank]
  | begun s => rw [blanked, blanked, blank_blank]

theorem Commutes.blind {f : State → DirResult} (h : Commutes f) : Blind f := fun s => by rw [h, blanked_blanked]

theorem dirRefused_commutes (o : DirOutcome) : Commutes (dirRefused o) := fun _ => rfl

/-- A check that does not read keys or salts. -/
theorem ite_blanked {p q : Prop} [Decidable p] [Decidable q] {a b c d : DirResult} (h : p ↔ q) (hac : a = blanked c) (hbd : b = blanked d) :
    (if p then a else b) = blanked (if q then c else d) := by
  by_cases hp : p
  · rw [if_pos hp, if_pos (h.1 hp), hac]
  · rw [if_neg hp, if_neg (fun hq => hp (h.2 hq)), hbd]

theorem dirDone_blanked {data data' : List Byte} {s t : State} (hdata : data' = data) (ht : t = blank s) :
    dirDone data' t = blanked (dirDone data s) := by rw [hdata, ht]; rfl

/-! ### Operations on slots and channels -/

section slots
variable (ch : Channel)

theorem blankChan_isOpen : (blankChan ch).isOpen = ch.isOpen := rfl

theorem blankChan_outSlot (x : Letter) : (blankChan ch).outSlot x = blankOut (ch.outSlot x) := by cases x <;> rfl

theorem blankChan_inSlot (x : Letter) : (blankChan ch).inSlot x = blankIn (ch.inSlot x) := by cases x <;> rfl

theorem blankChan_setOut {x : Letter} {o o' : OutSlot} (h : o' = blankOut o) : (blankChan ch).setOut x o' = blankChan (ch.setOut x o) := by
  subst h; cases x <;> rfl

theorem blankChan_setIn {x : Letter} {i i' : InSlot} (h : i' = blankIn i) : (blankChan ch).setIn x i' = blankChan (ch.setIn x i) := by
  subst h; cases x <;> rfl

theorem switchTarget_blank : switchTarget (blankChan ch) = switchTarget ch := rfl

theorem oldSlot_blank : oldSlot (blankChan ch) = oldSlot ch := rfl

theorem switchMade_blank : switchMade (blankChan ch) = switchMade ch := by
  unfold switchMade
  rw [switchTarget_blank, oldSlot_blank, blankChan_outSlot]
  cases oldSlot ch with
  | none => rfl
  | some x => simp only [blankChan_outSlot]; rfl

theorem retire_blank (o : OutSlot) : retire (blankOut o) = blankOut (retire o) := by
  unfold retire
  show (if 0 < o.inFlight then _ else _) = _
  split <;> rfl

theorem makeSwitch_blank (now : Time) : makeSwitch now (blankChan ch) = blankChan (makeSwitch now ch) := by
  unfold makeSwitch
  rw [switchTarget_blank, oldSlot_blank]
  cases oldSlot ch with
  | none =>
    simp only [blankChan_outSlot]
    exact blankChan_setOut _ rfl
  | some x =>
    simp only [blankChan_outSlot]
    rw [blankChan_setOut ch (retire_blank _)]
    exact blankChan_setOut _ rfl

theorem remarkSlot_blank (w : Nat) (i : InSlot) : remarkSlot w (blankIn i) = blankIn (remarkSlot w i) := by
  unfold remarkSlot
  show (if i.state = .empty then _ else _) = _
  split <;> rfl

theorem closeOut_blank (o : OutSlot) : closeOut (blankOut o) = blankOut (closeOut o) := by
  unfold closeOut
  show (if o.state = .draining then _ else _) = _
  split <;> rfl

end slots

section state
variable {s : State}

/-- A channel changed alike in a blanked state. -/
theorem updChan_blank {c : Chan} {f g : Channel → Channel} (h : g (blankChan (s.chan c)) = blankChan (f (s.chan c))) :
    (blank s).updChan c g = blank (s.updChan c f) := by
  have hget : (mapVec blankChan s.channels)[c] = blankChan (s.chan c) := mapVec_get ..
  have hset : (mapVec blankChan s.channels).set c (g (blankChan (s.chan c))) = mapVec blankChan (s.channels.set c (f (s.chan c))) := by
    refine Vector.ext fun i hi => ?_
    have hright : (mapVec blankChan (s.channels.set c (f (s.chan c))))[i] = blankChan (s.channels.set c (f (s.chan c)))[i] := mapVec_get _ _ ⟨i, hi⟩
    have hleft : (mapVec blankChan s.channels)[i] = blankChan s.channels[i] := mapVec_get _ _ ⟨i, hi⟩
    rw [hright, Vector.getElem_set, Vector.getElem_set]
    split
    · exact h
    · exact hleft
  calc (blank s).updChan c g = { blank s with channels := (mapVec blankChan s.channels).set c (g (mapVec blankChan s.channels)[c]) } := rfl
    _ = { blank s with channels := mapVec blankChan (s.channels.set c (f (s.chan c))) } := by rw [hget, hset]
    _ = blank (s.updChan c f) := rfl

theorem reportChan_blank (c : Chan) (ks : KindSet) (s : State) : reportChan c ks (blank s) = blank (reportChan c ks s) := by
  unfold reportChan
  split <;> rfl

end state

/-! ### The directives of channels and keys -/

theorem dirChanOpen_commutes (ops : List Byte) : Commutes (dirChanOpen ops) := by
  intro s
  unfold dirChanOpen
  split
  · rfl
  · split
    · rfl
    · split
      · rfl
      · split
        · rfl
        · refine ite_blanked (by rw [blank_chan]; rfl) rfl (dirDone_blanked rfl (updChan_blank rfl))

theorem dirChanSet_commutes (ops : List Byte) : Commutes (dirChanSet ops) := by
  intro s
  unfold dirChanSet
  split
  · rfl
  · split
    · rfl
    · split
      · rfl
      · next c _ =>
        split
        · rfl
        · refine ite_blanked (by rw [blank_chan]; rfl) rfl (dirDone_blanked (by rw [blank_chan]; rfl) (updChan_blank ?_))
          rw [blank_chan, apply_ite blankChan]
          refine if_congr Iff.rfl rfl ?_
          simp only [blankChan, remarkSlot_blank]

theorem dirChanClose_commutes (ops : List Byte) : Commutes (dirChanClose ops) := by
  intro s
  unfold dirChanClose
  split
  · rfl
  · split
    · rfl
    · split
      · rfl
      · refine ite_blanked (by rw [blank_chan]; rfl) (dirDone_blanked rfl (updChan_blank ?_)) rfl
        simp only [blankChan, closeOut_blank]
        rfl

theorem dirChanRead_commutes (ops : List Byte) : Commutes (dirChanRead ops) := by
  intro s
  unfold dirChanRead
  split
  · rfl
  · split
    · rfl
    · exact dirDone_blanked (by rw [blank_chan]; rfl) rfl

theorem eraseOut_commutes (c : Chan) (x : Letter) : Commutes (eraseOut c x) := by
  intro s
  have hstate : (((blank s).chan c).outSlot x).state = ((s.chan c).outSlot x).state := by rw [blank_chan, blankChan_outSlot]; rfl
  have hempty : (blank s).updChan c (fun ch => ch.setOut x (emptyOut (ch.outSlot x))) = blank (s.updChan c fun ch => ch.setOut x (emptyOut (ch.outSlot x))) :=
    updChan_blank (by rw [blankChan_outSlot]; exact blankChan_setOut _ rfl)
  unfold eraseOut
  rw [hstate, hempty]
  cases ((s.chan c).outSlot x).state <;> rfl

theorem eraseIn_commutes (c : Chan) (x : Letter) : Commutes (eraseIn c x) := by
  intro s
  have hempty : (blank s).updChan c (fun ch => ch.setIn x (emptyIn (ch.inSlot x))) = blank (s.updChan c fun ch => ch.setIn x (emptyIn (ch.inSlot x))) :=
    updChan_blank (by rw [blankChan_inSlot]; exact blankChan_setIn _ rfl)
  have hstate : ∀ y, (((blank s).chan c).inSlot y).state = ((s.chan c).inSlot y).state := fun y => by
    rw [blank_chan, blankChan_inSlot]; rfl
  unfold eraseIn
  rw [hstate, hstate, hempty]
  cases ((s.chan c).inSlot x).state with
  | current => exact ite_blanked Iff.rfl rfl rfl
  | _ => rfl

theorem dirKeyErase_commutes (ops : List Byte) : Commutes (dirKeyErase ops) := by
  intro s
  unfold dirKeyErase
  split
  · rfl
  · split
    · split
      · exact eraseIn_commutes ..
      · exact eraseOut_commutes ..
    · rfl

theorem dirKeyStage_blind (ops : List Byte) : Blind (dirKeyStage ops) := by
  intro s
  unfold dirKeyStage
  split
  · exact (dirRefused_commutes .format).blind s
  · have hstaged : ∀ g : Staging, blank { blank s with staging := g } = blank { s with staging := g } := fun g =>
      calc blank { blank s with staging := g } = { blank (blank s) with staging := { g with key := 0, salt := 0 } } := rfl
        _ = { blank s with staging := { g with key := 0, salt := 0 } } := by rw [blank_blank]
        _ = blank { s with staging := g } := rfl
    exact congrArg (DirResult.ended .done []) (hstaged _)

theorem dirSwitchNow_commutes (ops : List Byte) : Commutes (dirSwitchNow ops) := by
  intro s
  unfold dirSwitchNow
  split
  · rfl
  · split
    · rfl
    · next c _ =>
      refine ite_blanked (by rw [blank_chan, switchMade_blank]; rfl) rfl (dirDone_blanked ?_ ?_)
      · rw [blank_chan, switchTarget_blank, blankChan_outSlot]; rfl
      · rw [← reportChan_blank]
        exact congrArg _ (updChan_blank (makeSwitch_blank ..))

theorem scheduledSwitch_blank (c : Chan) (s : State) : scheduledSwitch c (blank s) = blank (scheduledSwitch c s) := by
  unfold scheduledSwitch
  rw [blank_chan, switchMade_blank]
  split
  · rw [← reportChan_blank]
    exact congrArg _ (updChan_blank (makeSwitch_blank ..))
  · exact reportChan_blank ..

theorem unscheduled_blank (c : Chan) (t : Option Time) (s : State) :
    (blank s).updChan c (fun ch => { ch with schedule := t }) = blank (s.updChan c fun ch => { ch with schedule := t }) := updChan_blank rfl

theorem dirSwitchAt_commutes (ops : List Byte) : Commutes (dirSwitchAt ops) := by
  intro s
  unfold dirSwitchAt
  split
  · rfl
  · split
    · rfl
    · next c _ =>
      refine ite_blanked (by rw [blank_chan]; rfl) rfl (ite_blanked Iff.rfl (dirDone_blanked rfl (unscheduled_blank ..)) (dirDone_blanked ?_ ?_))
      · rw [unscheduled_blank, blank_chan, switchMade_blank]; rfl
      · rw [unscheduled_blank, scheduledSwitch_blank]

theorem dirSwitchCancel_commutes (ops : List Byte) : Commutes (dirSwitchCancel ops) := by
  intro s
  unfold dirSwitchCancel
  split
  · rfl
  · split
    · rfl
    · exact dirDone_blanked (by rw [blank_chan]; rfl) (unscheduled_blank ..)

theorem zeroizeTable_blank (s : State) : zeroizeTable (blank s) = zeroizeTable s := by
  have h : mapVec (fun ch => { emptySlots ch with schedule := none }) (mapVec blankChan s.channels) =
      mapVec (fun ch => { emptySlots ch with schedule := none }) s.channels := mapVec_mapVec ..
  calc zeroizeTable (blank s) = { s with
        channels := mapVec (fun ch => { emptySlots ch with schedule := none }) (mapVec blankChan s.channels)
        staging := Staging.cold } := rfl
    _ = zeroizeTable s := by rw [h]; rfl

theorem dirZeroize_blind (ops : List Byte) : Blind (dirZeroize ops) := by
  intro s
  unfold dirZeroize
  split
  · exact (dirRefused_commutes .format).blind s
  · rw [zeroizeTable_blank]

end Sys2Proof.KeyBlindness
end

section
/-! Keys and salts are never read back: the directives of rules, ports, lanes and the agent, and the statement (R21, R22, R25). -/

namespace Sys2Proof.KeyBlindness
open Sys2Proof.Machine Sys2Proof.Safety

/-! ### The protection controller and the lanes -/

theorem blank_lane (s : State) (k : LaneId) : (blank s).lane k = s.lane k := rfl

theorem blank_updLane (k : LaneId) (f : Lane → Lane) (s : State) : (blank s).updLane k f = blank (s.updLane k f) := rfl

theorem blank_reportDevice (d : Kind) (s : State) : reportDevice d (blank s) = blank (reportDevice d s) := rfl

theorem restartContinuity_blank (k : LaneId) (s : State) : restartContinuity k (blank s) = blank (restartContinuity k s) := rfl

theorem cutBuffer_blank (k : LaneId) (n : PortId) (s : State) : cutBuffer k n (blank s) = blank (cutBuffer k n s) := by
  unfold cutBuffer
  rw [blank_lane, blank_updLane]
  split
  · exact (apply_ite blank ..).symm
  · rfl

theorem moveBridging_blank (a b : Option PortId) (s : State) : moveBridging a b (blank s) = blank (moveBridging a b s) := by
  cases a <;> cases b <;> simp only [moveBridging, cutBuffer_blank, blank_reportDevice]

theorem runArbiter_blank (s : State) : runArbiter (blank s) = blank (runArbiter s) := by
  cases hrole : s.role with
  | campus => rw [Switching.runArbiter_campus hrole, Switching.runArbiter_campus (s := blank s) hrole]
  | rack =>
    by_cases hsel : Switching.chosen s = s.prot.selection
    · rw [Switching.runArbiter_kept hrole hsel, Switching.runArbiter_kept (s := blank s) hrole hsel]; rfl
    · rw [Switching.runArbiter_moves hrole hsel, Switching.runArbiter_moves (s := blank s) hrole hsel, ← moveBridging_blank]; rfl

theorem setLoopMode_blank (k : LaneId) (m : LoopMode) (s : State) : setLoopMode k m (blank s) = blank (setLoopMode k m s) := by
  simp only [setLoopMode, blank_updLane, runArbiter_blank]
  exact (apply_ite blank ..).symm

theorem beginCipher_blank (k : LaneId) (s : State) : beginCipher k (blank s) = blank (beginCipher k s) := by
  rw [beginCipher, blank_updLane, setLoopMode_blank, beginCipher]

theorem endLine_blank (k : LaneId) (s : State) : endLine k (blank s) = blank (endLine k s) := by
  simp only [endLine, blank_updLane, setLoopMode_blank, blank_reportDevice]

theorem endCipher_blank (k : LaneId) (s : State) : endCipher k (blank s) = blank (endCipher k s) := by
  by_cases h : (s.lane k).state = .los
  · have h' : ((blank s).lane k).state = .los := h
    simp only [endCipher, if_pos h, if_pos h', setLoopMode_blank]
  · have h' : ¬ ((blank s).lane k).state = .los := h
    simp only [endCipher, if_neg h, if_neg h', restartContinuity_blank, setLoopMode_blank]

theorem localMode_blank (fs : FieldList) (k : LaneId) (s : State) : localMode fs k (blank s) = blank (localMode fs k s) := by
  unfold localMode
  rw [blank_lane, blank_updLane, beginCipher_blank, endLine_blank, endCipher_blank]
  split <;> rfl

/-! ### The directives of ports and lanes -/

theorem dirPortSet_commutes (ops : List Byte) : Commutes (dirPortSet ops) := by
  intro s
  unfold dirPortSet
  split
  · rfl
  · split
    · rfl
    · split
      · rfl
      · split
        · rfl
        · rfl

theorem dirLaneSet_commutes (ops : List Byte) : Commutes (dirLaneSet ops) := by
  intro s
  have hrun : ∀ f, runArbiter ((blank s).updProt f) = blank (runArbiter (s.updProt f)) := fun f => runArbiter_blank (s.updProt f)
  unfold dirLaneSet
  split
  · rfl
  · split
    · rfl
    · exact ite_blanked Iff.rfl rfl (dirDone_blanked (by rw [hrun]; rfl) (hrun _))

theorem dirLoopSet_commutes (ops : List Byte) : Commutes (dirLoopSet ops) := by
  intro s
  unfold dirLoopSet
  split
  · rfl
  · split
    · rfl
    · split
      · rfl
      · split
        · rfl
        · refine ite_blanked Iff.rfl rfl (dirDone_blanked ?_ ?_)
          · rw [localMode_blank]; rfl
          · rw [localMode_blank]; rfl

theorem dirTestSet_commutes (ops : List Byte) : Commutes (dirTestSet ops) := by
  intro s
  unfold dirTestSet
  split
  · rfl
  · split
    · rfl
    · split
      · rfl
      · rfl

theorem dirTestInject_commutes (ops : List Byte) : Commutes (dirTestInject ops) := by
  intro s
  unfold dirTestInject
  split
  · rfl
  · split
    · exact ite_blanked Iff.rfl rfl rfl
    · rfl

/-! ### The directives of the classifier -/

theorem ruleEdit_commutes (base : Entry → Entry) (ops : List Byte) : Commutes (ruleEdit base ops) := by
  intro s
  unfold ruleEdit
  split
  · rfl
  · split
    · rfl
    · split
      · rfl
      · split
        · rfl
        · split
          · rfl
          · rfl

theorem dirRuleClear_commutes (ops : List Byte) : Commutes (dirRuleClear ops) := by
  intro s
  unfold dirRuleClear
  split
  · rfl
  · exact ite_blanked Iff.rfl rfl rfl

theorem dirRuleRead_commutes (ops : List Byte) : Commutes (dirRuleRead ops) := by
  intro s
  unfold dirRuleRead
  split
  · rfl
  · split
    · rfl
    · rfl
    · rfl

theorem dirRuleMove_commutes (ops : List Byte) : Commutes (dirRuleMove ops) := by
  intro s
  unfold dirRuleMove
  split
  · rfl
  · exact ite_blanked Iff.rfl rfl rfl

theorem dirTableCommit_commutes (ops : List Byte) : Commutes (dirTableCommit ops) := fun _ => ite_blanked Iff.rfl rfl rfl

theorem dirTableRevert_commutes (ops : List Byte) : Commutes (dirTableRevert ops) := fun _ => ite_blanked Iff.rfl rfl rfl

/-! ### The directives of the agent -/

theorem sweepChan_blank (clear : Bool) (c : Chan) (s : State) :
    sweepChan clear c (blank s) = ((sweepChan clear c s).1, blank (sweepChan clear c s).2) := by
  have hclear : (blank s).updChan c (fun ch => { ch with counters := Vector.replicate 13 0 }) =
      blank (s.updChan c fun ch => { ch with counters := Vector.replicate 13 0 }) := updChan_blank rfl
  unfold sweepChan
  rw [blank_chan]
  cases clear with
  | true => exact congrArg (Prod.mk _) hclear
  | false => rfl

theorem sweepChans_blank (clear : Bool) (n : Nat) (c : Chan) (s : State) :
    sweepChans clear n c (blank s) = ((sweepChans clear n c s).1, blank (sweepChans clear n c s).2) := by
  induction n generalizing c s with
  | zero => rfl
  | succ n ih => simp only [sweepChans, sweepChan_blank, ih]

theorem dirCountSweep_commutes (ops : List Byte) : Commutes (dirCountSweep ops) := by
  intro s
  unfold dirCountSweep
  split
  · rfl
  · split
    · refine ite_blanked Iff.rfl rfl (dirDone_blanked ?_ ?_)
      · rw [sweepChans_blank]
      · rw [sweepChans_blank]
    · rfl

theorem readPlace_blank (clear : Bool) (place : Nat) (s : State) :
    readPlace clear place (blank s) = ((readPlace clear place s).1, blank (readPlace clear place s).2) := by
  unfold readPlace
  split
  · cases clear <;> rfl
  · split
    · cases clear <;> rfl
    · cases clear <;> rfl

theorem readPlaces_blank (clear : Bool) (n place : Nat) (s : State) :
    readPlaces clear n place (blank s) = ((readPlaces clear n place s).1, blank (readPlaces clear n place s).2) := by
  induction n generalizing place s with
  | zero => rfl
  | succ n ih => simp only [readPlaces, readPlace_blank, ih]

theorem dirPortCounts_commutes (ops : List Byte) : Commutes (dirPortCounts ops) := by
  intro s
  unfold dirPortCounts
  split
  · rfl
  · split
    · refine ite_blanked Iff.rfl rfl (dirDone_blanked ?_ ?_)
      · rw [readPlaces_blank]
      · rw [readPlaces_blank]
    · rfl

theorem dirTimeRead_commutes (ops : List Byte) : Commutes (dirTimeRead ops) := fun _ => ite_blanked Iff.rfl rfl rfl

theorem dirStatusRead_commutes (ops : List Byte) : Commutes (dirStatusRead ops) := fun _ => ite_blanked Iff.rfl rfl rfl

theorem dirNoticeMask_commutes (ops : List Byte) : Commutes (dirNoticeMask ops) := fun _ =>
  ite_blanked Iff.rfl rfl (ite_blanked Iff.rfl rfl rfl)

theorem dirIdRead_commutes (ops : List Byte) : Commutes (dirIdRead ops) := fun _ => ite_blanked Iff.rfl rfl rfl

theorem dirIdBurn_commutes (ops : List Byte) : Commutes (dirIdBurn ops) := by
  intro s
  unfold dirIdBurn
  split
  · rfl
  · split
    · rfl
    · split
      · rfl
      · exact ite_blanked Iff.rfl rfl (ite_blanked Iff.rfl rfl rfl)

theorem dirRestart_commutes (last : Bool) (ops : List Byte) : Commutes (dirRestart last ops) := fun _ => ite_blanked Iff.rfl rfl rfl

/-! ### The statement -/

/-- Every directive but KEY-COMMIT, by its code. -/
theorem perform_blind (last : Bool) {d : Directive} (h : d.code ≠ codeKeyCommit) : Blind (perform last d) := by
  intro s
  unfold perform
  split
  · exact (dirChanOpen_commutes _).blind s
  · exact (dirChanSet_commutes _).blind s
  · exact (dirChanClose_commutes _).blind s
  · exact (dirChanRead_commutes _).blind s
  · exact dirKeyStage_blind _ s
  · next hcode => exact absurd (BitVec.eq_of_toNat_eq hcode) h
  · exact (dirKeyErase_commutes _).blind s
  · exact (dirSwitchNow_commutes _).blind s
  · exact (dirSwitchAt_commutes _).blind s
  · exact (dirSwitchCancel_commutes _).blind s
  · exact (dirTimeRead_commutes _).blind s
  · exact (ruleEdit_commutes _ _).blind s
  · exact (ruleEdit_commutes _ _).blind s
  · exact (dirRuleClear_commutes _).blind s
  · exact (dirRuleRead_commutes _).blind s
  · exact (dirRuleMove_commutes _).blind s
  · exact (dirTableCommit_commutes _).blind s
  · exact (dirTableRevert_commutes _).blind s
  · exact (dirPortSet_commutes _).blind s
  · exact (dirLaneSet_commutes _).blind s
  · exact (dirLoopSet_commutes _).blind s
  · exact (dirTestSet_commutes _).blind s
  · exact (dirTestInject_commutes _).blind s
  · exact (dirCountSweep_commutes _).blind s
  · exact (dirPortCounts_commutes _).blind s
  · exact (dirStatusRead_commutes _).blind s
  · exact (dirNoticeMask_commutes _).blind s
  · exact (dirIdRead_commutes _).blind s
  · exact (dirIdBurn_commutes _).blind s
  · exact dirZeroize_blind _ s
  · exact (dirRestart_commutes _ _).blind s
  · exact (dirRefused_commutes _).blind s

/-- On two states that differ in keys and salts alone the answers differ in those alone. -/
theorem perform_alike (last : Bool) {d : Directive} {s s' : State} (hs : SameButKeys s s') (h : d.code ≠ codeKeyCommit) :
    blanked (perform last d s') = blanked (perform last d s) := by
  rw [← perform_blind last h s', ← perform_blind last h s, sameButKeys_iff.1 hs]

theorem ended_of_blanked {r : DirResult} {o : DirOutcome} {data : List Byte} {t : State} (h : blanked r = .ended o data (blank t)) :
    ∃ t', r = .ended o data t' ∧ SameButKeys t t' := by
  cases r with
  | ended o' data' t' =>
    obtain ⟨rfl, rfl, ht⟩ := DirResult.ended.inj h
    exact ⟨t', rfl, sameButKeys_iff.2 ht.symm⟩
  | begun t' => cases h

theorem begun_of_blanked {r : DirResult} {t : State} (h : blanked r = .begun (blank t)) : ∃ t', r = .begun t' ∧ SameButKeys t t' := by
  cases r with
  | ended o data t' => cases h
  | begun t' => exact ⟨t', rfl, sameButKeys_iff.2 (DirResult.begun.inj h).symm⟩

/-- Settles O53: a directive answers the same with every key and salt blanked. -/
theorem keysNeverReadBack : Obligations.KeysNeverReadBack := by
  intro last d s s' hs hcode
  have halike := perform_alike last hs hcode
  refine ⟨fun o data t ht => ended_of_blanked ?_, fun t ht => begun_of_blanked ?_⟩
  · rw [halike, ht]; rfl
  · rw [halike, ht]; rfl

end Sys2Proof.KeyBlindness
end
